-- ==== Sys2Proof/Word.lean ====
section
/-! DEFINITION. The word types of the block: slot values, the 10-bit fields, command words and event descriptors (00_scope.md R5, section 7; 10_state.md R8). -/

namespace Sys2Proof

/-- A slot value, a start code or a data byte: 8 bits, unsigned (R8). -/
abbrev Byte := BitVec 8

/-- An address, offset, length or count field, `CURSOR` or `TXIDX`: 10 bits, unsigned (00_scope.md section 7). -/
abbrev Field := BitVec 10

/-- A command word `W` (R52). -/
abbrev CmdWord := BitVec 32

/-- An event descriptor `E` (R58). -/
abbrev EvtWord := BitVec 16

/-- `NSLOT`, the channel slots of a universe: 512, fixed (R5, R13). -/
abbrev nslot : Nat := 512

end Sys2Proof
end

