-- ==== Sys2Proof/Config.lean ====
section
/-! DEFINITION. The implementation parameters of 00_scope.md R5: the record a step takes as its argument, the bounds, the defaults, and the machine's own parameters, which are free values within the bounds. -/

namespace Sys2Proof

/-- The open parameters of an instantiation (R5); durations in Ticks of one microsecond. -/
structure Params where
  /-- `TMR_W`, the width of `TMR` in bits. -/
  tmrW : Nat
  /-- `T_BREAK_US`. -/
  tBreak : Nat
  /-- `T_MAB_US`. -/
  tMab : Nat
  /-- `T_GAP_US`. -/
  tGap : Nat
  /-- `START_CODE`. -/
  startCode : Byte
deriving DecidableEq, Repr

/-- The bounds column of R5; R140 and D44: anything outside has no meaning. -/
def Params.legal (p : Params) : Bool :=
  decide (14 ≤ p.tmrW) && decide (88 ≤ p.tBreak) && decide (p.tBreak < 2 ^ p.tmrW) &&
    decide (12 ≤ p.tMab) && decide (p.tMab < 2 ^ p.tmrW) && decide (p.tGap < 2 ^ p.tmrW)

/-- The default column of R5. -/
def Params.default : Params :=
  { tmrW := 16, tBreak := 250, tMab := 20, tGap := 10000, startCode := 0#8 }

/-- FREE VALUE (log entry 1): what fixes `TMR_W` of this instantiation. -/
opaque Config.tmrWDraw : Nat
/-- FREE VALUE (log entry 1): what fixes `T_BREAK_US` of this instantiation. -/
opaque Config.tBreakDraw : Nat
/-- FREE VALUE (log entry 1): what fixes `T_MAB_US` of this instantiation. -/
opaque Config.tMabDraw : Nat
/-- FREE VALUE (log entry 1): what fixes `T_GAP_US` of this instantiation. -/
opaque Config.tGapDraw : Nat
/-- FREE VALUE (log entry 1): `START_CODE` of this instantiation, any byte (R5, D8). -/
opaque Config.startCode : Byte

/-- The legal parameters that five draws fix: each draw reaches every legal value of its parameter and no other. -/
def Params.ofDraws (w br mab gap : Nat) (sc : Byte) : Params :=
  { tmrW := 14 + w
    tBreak := 88 + br % (2 ^ (14 + w) - 88)
    tMab := 12 + mab % (2 ^ (14 + w) - 12)
    tGap := gap % 2 ^ (14 + w)
    startCode := sc }

/-- The parameters of the machine: D7 and D8 leave them OPEN, so nothing but R5's bounds can be proved of them. -/
def Config.params : Params :=
  Params.ofDraws Config.tmrWDraw Config.tBreakDraw Config.tMabDraw Config.tGapDraw Config.startCode

end Sys2Proof
end

