-- ==== Sys2Proof/Syntax.lean ====
section
/-! DEFINITION. The syntax of the block: its sixteen instructions (ten commands and six events, spec/opcode_table.json) and the transactions that carry them (10_state.md R28, R30). -/

namespace Sys2Proof

/-- The operand `m` of START: `W[0]` = 0 Transmit, 1 Receive (R103). -/
inductive StartMode where
  | tx
  | rx
deriving DecidableEq, Repr

/-- The rows of the command table R54. -/
inductive CmdOp where
  | start | stop | setch | setuni | write | getuni | getch | getrng | flush | getstat
deriving DecidableEq, Repr

/-- The rows of the event table R59. -/
inductive EvtOp where
  | data | brk | ferr | perr | ovf | bfull
deriving DecidableEq, Repr

/-- The instructions: one constructor per row of spec/opcode_table.json. A command's payload and a Data event's
bytes are operands, in ascending slot order and in order of arrival. -/
inductive Instr where
  /-- START (R103). -/
  | start (m : StartMode)
  /-- STOP (R104). -/
  | stop
  /-- SETCH: public address `a`, value `v` (R68). -/
  | setch (v : Byte) (a : Field)
  /-- SETUNI: payload of 512 bytes (R69). -/
  | setuni (p : List Byte)
  /-- WRITE: length `l`, 0-based offset `o`, payload of `l` bytes (R67). -/
  | write (l o : Field) (p : List Byte)
  /-- GETUNI (R71). -/
  | getuni
  /-- GETCH: public address `a` (R73). -/
  | getch (a : Field)
  /-- GETRNG: count `c`, public start address `s` (R72). -/
  | getrng (c s : Field)
  /-- FLUSH (R105). -/
  | flush
  /-- GETSTAT (R106). -/
  | getstat
  /-- EV_DATA: `n` bytes `b` (R90). -/
  | evData (n : Field) (b : List Byte)
  /-- EV_BREAK (R89). -/
  | evBreak
  /-- EV_FERR (R92). -/
  | evFerr
  /-- EV_PERR (R93). -/
  | evPerr
  /-- EV_OVF (R94). -/
  | evOvf
  /-- EV_BFULL (R95). -/
  | evBfull
deriving DecidableEq, Repr

/-- What the two ports carry: a command word with its payload (R28), an event descriptor with its data bytes (R30). -/
inductive Transaction where
  | cmd (w : CmdWord) (p : List Byte)
  | evt (e : EvtWord) (b : List Byte)
deriving DecidableEq, Repr

end Sys2Proof
end

