-- ==== Sys2Proof/WellFormed.lean ====
section
/-! DEFINITION. When an instruction is well formed: the byte run that follows a word or a descriptor has the length the word fixes (30_encoding.md R53, R58). -/

namespace Sys2Proof

/-- R53: SETUNI carries 512 bytes and WRITE `l`; R58: a Data event carries `n` bytes, at least 1; no other
instruction carries any. -/
def Instr.wellFormed : Instr → Bool
  | .start _ => true
  | .stop => true
  | .setch _ _ => true
  | .setuni p => p.length == nslot
  | .write l _ p => p.length == l.toNat
  | .getuni => true
  | .getch _ => true
  | .getrng _ _ => true
  | .flush => true
  | .getstat => true
  | .evData n b => b.length == n.toNat && decide (1 ≤ n.toNat)
  | .evBreak => true
  | .evFerr => true
  | .evPerr => true
  | .evOvf => true
  | .evBfull => true

end Sys2Proof
end

