-- ==== Sys2Proof/Decode.lean ====
section
/-! DEFINITION. Decoding of command and event transactions, total and rejecting by name, and the encoder, both written from 30_encoding.md R52 to R60. -/

namespace Sys2Proof

/-- Why a transaction is no instruction of the block. The first three answer `IllegalCommand` (R55, R53), the
others drop the event (R60; `dataCount`: log entry 7). -/
inductive DecodeError where
  /-- `op` is 0x0 or 0xB to 0xF (R55). -/
  | illegalOpcode
  /-- a legal `op` with a 1 where the pattern of R54 shows 0 (R55). -/
  | reservedBits
  /-- the payload has another length than the word fixes (R53). -/
  | payloadLength
  /-- event type 6 or 7 (R60). -/
  | reservedType
  /-- a 1 in `E[12:10]` (R60). -/
  | reservedEventBits
  /-- a Data descriptor with `len = 0` (R60). -/
  | emptyData
  /-- a condition descriptor with `len != 0` (R60). -/
  | conditionLength
  /-- another number of data bytes than `len` (R58; log entry 7). -/
  | dataCount
deriving DecidableEq, Repr

/-! ## Fields of a command word (R52) and of a descriptor (R58) -/

/-- `W[31:28]`. -/
def wordOp (w : CmdWord) : BitVec 4 := w.extractLsb' 28 4
/-- `W[27:20]`. -/
def wordVal (w : CmdWord) : Byte := w.extractLsb' 20 8
/-- `W[19:10]`. -/
def wordB (w : CmdWord) : Field := w.extractLsb' 10 10
/-- `W[9:0]`. -/
def wordA (w : CmdWord) : Field := w.extractLsb' 0 10
/-- `E[15:13]`. -/
def evtType (e : EvtWord) : BitVec 3 := e.extractLsb' 13 3
/-- `E[12:10]`. -/
def evtReserved (e : EvtWord) : BitVec 3 := e.extractLsb' 10 3
/-- `E[9:0]`. -/
def evtLen (e : EvtWord) : Field := e.extractLsb' 0 10

/-- The command word of four fields (R52). -/
def packCmd (op : BitVec 4) (val : Byte) (b a : Field) : CmdWord := op ++ val ++ b ++ a
/-- The descriptor of three fields (R58). -/
def packEvt (type reserved : BitVec 3) (len : Field) : EvtWord := type ++ reserved ++ len

/-! ## The command table (R54) -/

/-- The ten commands in the order of their codes. -/
def allCmds : List CmdOp :=
  [.start, .stop, .setch, .setuni, .write, .getuni, .getch, .getrng, .flush, .getstat]

/-- The `match` column of R54. -/
def CmdOp.pattern : CmdOp → CmdWord
  | .start => 0x10000000
  | .stop => 0x20000000
  | .setch => 0x30000000
  | .setuni => 0x40000000
  | .write => 0x50000000
  | .getuni => 0x60000000
  | .getch => 0x70000000
  | .getrng => 0x80000000
  | .flush => 0x90000000
  | .getstat => 0xA0000000

/-- The `mask` column of R54. -/
def CmdOp.mask : CmdOp → CmdWord
  | .start => 0xFFFFFFFE
  | .stop => 0xFFFFFFFF
  | .setch => 0xF00FFC00
  | .setuni => 0xFFFFFFFF
  | .write => 0xFFF00000
  | .getuni => 0xFFFFFFFF
  | .getch => 0xFFFFFC00
  | .getrng => 0xFFF00000
  | .flush => 0xFFFFFFFF
  | .getstat => 0xFFFFFFFF

/-- `W & mask = match` selects the row (R54). -/
def CmdOp.selects (c : CmdOp) (w : CmdWord) : Bool := w &&& c.mask == c.pattern

/-- The row a word selects; the rows are pairwise disjoint (R54). -/
def cmdOf (w : CmdWord) : Option CmdOp := allCmds.find? (fun c => c.selects w)

/-- R53: the number of payload bytes, a function of the word alone. -/
def payloadLength (w : CmdWord) : Nat :=
  match cmdOf w with
  | some .setuni => nslot
  | some .write => (wordB w).toNat
  | some .start | some .stop | some .setch | some .getuni | some .getch | some .getrng
  | some .flush | some .getstat => 0
  | none => 0

/-- The mode bit of START, `W[0]` (R56, R103). -/
def startModeOf (w : CmdWord) : StartMode := if w.getLsbD 0 then .rx else .tx

/-- The instruction of a row, its operands taken from the fields as they stand (R56). -/
def buildCmd (c : CmdOp) (w : CmdWord) (p : List Byte) : Instr :=
  match c with
  | .start => .start (startModeOf w)
  | .stop => .stop
  | .setch => .setch (wordVal w) (wordA w)
  | .setuni => .setuni p
  | .write => .write (wordB w) (wordA w) p
  | .getuni => .getuni
  | .getch => .getch (wordA w)
  | .getrng => .getrng (wordB w) (wordA w)
  | .flush => .flush
  | .getstat => .getstat

/-- Which of the two kinds of illegal word (R55). -/
def cmdError (w : CmdWord) : DecodeError :=
  if 1 ≤ (wordOp w).toNat ∧ (wordOp w).toNat ≤ 10 then .reservedBits else .illegalOpcode

/-- Decoding of a command transaction (R53 to R55). -/
def decodeCmd (w : CmdWord) (p : List Byte) : Except DecodeError Instr :=
  match cmdOf w with
  | none => .error (cmdError w)
  | some c => if p.length = payloadLength w then .ok (buildCmd c w p) else .error .payloadLength

/-! ## The event table (R59) -/

/-- The six events in the order of their types. -/
def allEvts : List EvtOp := [.data, .brk, .ferr, .perr, .ovf, .bfull]

/-- The `match` column of R59. -/
def EvtOp.pattern : EvtOp → EvtWord
  | .data => 0x0000
  | .brk => 0x2000
  | .ferr => 0x4000
  | .perr => 0x6000
  | .ovf => 0x8000
  | .bfull => 0xA000

/-- The `mask` column of R59. -/
def EvtOp.mask : EvtOp → EvtWord
  | .data => 0xFC00
  | .brk => 0xFFFF
  | .ferr => 0xFFFF
  | .perr => 0xFFFF
  | .ovf => 0xFFFF
  | .bfull => 0xFFFF

/-- R59: `E & mask = match`, and for Data the extra condition `len >= 1`. -/
def EvtOp.selects (c : EvtOp) (e : EvtWord) : Bool :=
  e &&& c.mask == c.pattern && (c != .data || decide (1 ≤ (evtLen e).toNat))

/-- The row a descriptor selects. -/
def evtOf (e : EvtWord) : Option EvtOp := allEvts.find? (fun c => c.selects e)

/-- The instruction of a row and its bytes (R58). -/
def buildEvt (c : EvtOp) (e : EvtWord) (b : List Byte) : Instr :=
  match c with
  | .data => .evData (evtLen e) b
  | .brk => .evBreak
  | .ferr => .evFerr
  | .perr => .evPerr
  | .ovf => .evOvf
  | .bfull => .evBfull

/-- Which kind of descriptor R60 drops. -/
def evtError (e : EvtWord) : DecodeError :=
  if 6 ≤ (evtType e).toNat then .reservedType
  else if evtReserved e ≠ 0 then .reservedEventBits
  else if evtType e = 0 then .emptyData
  else .conditionLength

/-- Decoding of an event transaction (R58 to R60). -/
def decodeEvt (e : EvtWord) (b : List Byte) : Except DecodeError Instr :=
  match evtOf e with
  | none => .error (evtError e)
  | some c => if b.length = (evtLen e).toNat then .ok (buildEvt c e b) else .error .dataCount

/-- Decoding, total on every transaction either port can carry. -/
def decode : Transaction → Except DecodeError Instr
  | .cmd w p => decodeCmd w p
  | .evt e b => decodeEvt e b

/-! ## The encoder, from the patterns of R54 and R59 -/

/-- The mode bit as field `a` of START (R52, R54). -/
def StartMode.field : StartMode → Field
  | .tx => 0
  | .rx => 1

/-- The transaction of an instruction; unused fields carry 0 (R52). -/
def encode : Instr → Transaction
  | .start m => .cmd (packCmd 0x1 0 0 m.field) []
  | .stop => .cmd (packCmd 0x2 0 0 0) []
  | .setch v a => .cmd (packCmd 0x3 v 0 a) []
  | .setuni p => .cmd (packCmd 0x4 0 0 0) p
  | .write l o p => .cmd (packCmd 0x5 0 l o) p
  | .getuni => .cmd (packCmd 0x6 0 0 0) []
  | .getch a => .cmd (packCmd 0x7 0 0 a) []
  | .getrng c s => .cmd (packCmd 0x8 0 c s) []
  | .flush => .cmd (packCmd 0x9 0 0 0) []
  | .getstat => .cmd (packCmd 0xA 0 0 0) []
  | .evData n b => .evt (packEvt 0 0 n) b
  | .evBreak => .evt (packEvt 1 0 0) []
  | .evFerr => .evt (packEvt 2 0 0) []
  | .evPerr => .evt (packEvt 3 0 0) []
  | .evOvf => .evt (packEvt 4 0 0) []
  | .evBfull => .evt (packEvt 5 0 0) []

/-! ## Words numbered as the opcode table numbers them -/

/-- The transaction of a 32-bit command word or a 16-bit descriptor whose byte run is all zeros, of the length the
word fixes (log entry 13). -/
def tableTransaction (nbits w : Nat) : Option Transaction :=
  if nbits = 32 then
    some (.cmd (BitVec.ofNat 32 w) (List.replicate (payloadLength (BitVec.ofNat 32 w)) 0))
  else if nbits = 16 then
    some (.evt (BitVec.ofNat 16 w) (List.replicate (evtLen (BitVec.ofNat 16 w)).toNat 0))
  else none

/-- The instruction the decoder reads from a word of the opcode table. -/
def decodeTableWord (nbits w : Nat) : Option Instr :=
  match tableTransaction nbits w with
  | none => none
  | some x =>
    match decode x with
    | .ok i => some i
    | .error _ => none

end Sys2Proof
end

