-- ==== Sys2Proof/Machine/State.lean ====
section
/-! DEFINITION. The state of the block (10_state.md R7), the labels and outputs of its transitions (00_scope.md R6), the reasons a step can stop, and the state after reset (R32). -/

namespace Sys2Proof.Machine

/-- A 512-slot array: (0-based index, value) pairs, indexes rising, no entry equal to what an unlisted slot reads
as (log entry 8). -/
abbrev Memory := List Host.Cell

/-- What an unlisted slot reads as: the reset content 0x00 (R32). -/
def Memory.unlisted : Byte := 0#8

/-- `MODE`, the active worker (R15); the fourth code is never held (93 U16). -/
inductive Mode where
  | stopped | transmit | receive
deriving DecidableEq, Repr

/-- `DSTATE`, the decoder state (R16). -/
inductive DState where
  | idle | breakDetected | receiving | frameDone | linkError
deriving DecidableEq, Repr

/-- `TXSTATE`, the position in the transmit cycle (R18). -/
inductive TxState where
  | off | waitIdle | brk | mab | sc | data | flush | gap
deriving DecidableEq, Repr

/-- The statuses of a response (R108); the codes 3 and 4 are kept and never produced (R112). -/
inductive Status where
  | ok | outOfRange | driverError | configurationError | allocationError | illegalCommand
deriving DecidableEq, Repr

/-- The alphabet of the output trace (R6). -/
inductive Output where
  /-- `brk_o` goes from 0 to 1 (R21). -/
  | brkOn
  /-- `brk_o` goes from 1 to 0 (R21). -/
  | brkOff
  /-- a byte is handed to LINKTX (R29). -/
  | txByte (b : Byte)
  /-- `rx_flush_o` pulses (R30). -/
  | rxFlush
  /-- `lnk_cfg_o` pulses (R31). -/
  | linkCfg
  /-- `dir_o` is written (R22). -/
  | dir (l : Bool)
  /-- a command is answered (R57). -/
  | rsp (st : Status) (data : List Byte)
deriving DecidableEq, Repr

/-- The labels of R6: what an agent does next. -/
inductive Label where
  /-- HOST: `Cmd(W, P)`; `drvOk` is the level of `drv_ok_i` in that transition (R28, R31). -/
  | cmd (w : CmdWord) (p : List Byte) (drvOk : Bool)
  /-- LINKRX: `Evt(E, B)` (R30). -/
  | evt (e : EvtWord) (b : List Byte)
  /-- TIMEBASE: one Tick (R31). -/
  | tick
  /-- LINKTX: accepts the byte offered (R29). -/
  | txReady
  /-- LINKTX: its wait-for-transmit-complete primitive returns (R29). -/
  | txDone (ok : Bool)
  /-- PLATFORM: `Reset` (R126). -/
  | reset
  /-- TXSEQ: its internal expiry step, if one is enabled (R77, R78, R82). -/
  | internal
deriving DecidableEq, Repr

/-- Why a step stops. -/
inductive Fault where
  /-- An index beyond the 512 slots: raised by `State.consume` when `CURSOR > 512` and by `handPayload` when
  `TXIDX > 511` in TX_DATA. R23 (5) and (6) say no run reaches such a state. Safe: the machine stops (log entry 9). -/
  | slotIndexOutOfRange
deriving DecidableEq, Repr

/-- Why a step has no meaning. -/
inductive Refusal where
  /-- An instruction without a meaning yet, raised by `exec` only; no arm does. Safe. -/
  | notModelled (mnemonic : String)
  /-- An instantiation outside the bounds of R5, raised by `stepInstantiated` only (R140, D44; log entry 16). Safe. -/
  | illegalParameters
deriving DecidableEq, Repr

/-- The state: the eleven elements of R7, then the model's own three (log entries 3, 5 and 6). -/
structure State where
  /-- `TXSLOT`, the send buffer (R8). -/
  txslot : Memory
  /-- `RXSLOT`, the receive buffer (R10). -/
  rxslot : Memory
  /-- `TXSHADOW`, the snapshot of the current cycle (R11). -/
  txshadow : Memory
  /-- `MODE` (R15). -/
  mode : Mode
  /-- `DSTATE` (R16). -/
  dstate : DState
  /-- `CURSOR` (R17). -/
  cursor : Field
  /-- `TXSTATE` (R18). -/
  txstate : TxState
  /-- `TXIDX` (R19). -/
  txidx : Field
  /-- `TMR`, Ticks left (R20; log entry 2). -/
  tmr : Nat
  /-- `brk_o` (R21). -/
  brk : Bool
  /-- `dir_o` (R22). -/
  dir : Bool
  /-- The labels the agents will act by, next first: the schedule of R6 and R44 as data (log entry 3). -/
  pending : List Label
  /-- The level of the input port `drv_ok_i` at the command being delivered (R31; log entry 5). -/
  drvOk : Bool
  /-- The output trace so far (R6; log entry 6). -/
  trace : List Output
deriving DecidableEq, Repr

/-- The state after `Reset` (R32): every element 0, no label pending, no output yet. -/
def State.reset : State :=
  { txslot := [], rxslot := [], txshadow := []
    mode := .stopped, dstate := .idle, cursor := 0
    txstate := .off, txidx := 0, tmr := 0, brk := false, dir := false
    pending := [], drvOk := true, trace := [] }

end Sys2Proof.Machine
end

