-- ==== Sys2Proof/Machine/Flags.lean ====
section
/-! DEFINITION. The block has no condition flags (10_state.md R26); this file holds the numeric encodings of its enumerations and the one status byte GETSTAT computes from them (R15, R16, R18, R106, R108). -/

namespace Sys2Proof.Machine

/-- The encoding of `MODE` (R15). -/
def Mode.code : Mode → BitVec 2
  | .stopped => 0
  | .transmit => 1
  | .receive => 2

/-- The encoding of `DSTATE` (R16). -/
def DState.code : DState → BitVec 3
  | .idle => 0
  | .breakDetected => 1
  | .receiving => 2
  | .frameDone => 3
  | .linkError => 4

/-- The encoding of `TXSTATE` (R18). -/
def TxState.code : TxState → BitVec 3
  | .off => 0
  | .waitIdle => 1
  | .brk => 2
  | .mab => 3
  | .sc => 4
  | .data => 5
  | .flush => 6
  | .gap => 7

/-- The status codes (R108). -/
def Status.code : Status → BitVec 3
  | .ok => 0
  | .outOfRange => 1
  | .driverError => 2
  | .configurationError => 3
  | .allocationError => 4
  | .illegalCommand => 5

/-- The byte of GETSTAT: `{0b000, DSTATE[2:0], MODE[1:0]}` (R106). -/
def statusByte (d : DState) (m : Mode) : Byte := (0#3 ++ d.code) ++ m.code

/-- The timed states, left only when `TMR` is 0 (R20). -/
def TxState.timed : TxState → Bool
  | .brk => true
  | .mab => true
  | .gap => true
  | .off => false
  | .waitIdle => false
  | .sc => false
  | .data => false
  | .flush => false

end Sys2Proof.Machine
end

