-- ==== Sys2Proof/Machine/Operands.lean ====
section
/-! DEFINITION. The operand forms of the commands: the range checks and the address arithmetic of 30_encoding.md R56, 40_framebuffer_write.md R66 and 41_framebuffer_read.md R70. -/

namespace Sys2Proof.Machine

/-- `zext_11(x)`: widening for a sum that cannot wrap (R66). -/
def zext11 (x : Field) : BitVec 11 := x.zeroExtend 11

/-- The address test of SETCH and GETCH: `1 <= a <= 512` on the field as it stands (R66). -/
def addressOk (a : Field) : Bool := decide (1#10 ≤ a) && decide (a ≤ 512#10)

/-- The range test of WRITE: `o + l` in 11 bits does not exceed 512 (R66, R67). -/
def offsetOk (o l : Field) : Bool := decide (zext11 o + zext11 l ≤ 512#11)

/-- The range test of GETRNG, its three tests in the order written (R70, R72). -/
def rangeOk (s c : Field) : Bool :=
  decide (1#10 ≤ s) && decide (1#10 ≤ c) && decide (zext11 s + zext11 c - 1#11 ≤ 512#11)

/-- The index of a public address, `a - 1`, formed only when `a >= 1` (R12, R56). -/
def slotIndex (a : Field) : Nat := a.toNat - 1

end Sys2Proof.Machine
end

