-- ==== Sys2Proof/Machine/Ops.lean ====
section
/-! DEFINITION. The named operations every meaning is written with: the slot arrays, the outputs and responses, failing a command (60_exceptions.md R117), and the shared procedures teardown, link_fault and consume (R102, R96, R91). -/

namespace Sys2Proof.Machine

/-! ## Slot arrays -/

/-- The value of slot `i`. -/
def Memory.read : Memory → Nat → Byte
  | [], _ => Memory.unlisted
  | c :: m, i => if c.1 = i then c.2 else Memory.read m i

/-- Slot `i` set to `v`, keeping the canonical form: an entry equal to the unlisted value is removed. -/
def Memory.write : Memory → Nat → Byte → Memory
  | [], i, v => if v = Memory.unlisted then [] else [(i, v)]
  | c :: m, i, v =>
    if i < c.1 then (if v = Memory.unlisted then c :: m else (i, v) :: c :: m)
    else if i = c.1 then (if v = Memory.unlisted then m else (i, v) :: m)
    else c :: Memory.write m i v

/-- The bytes of `bs` stored from index `i` up, in ascending order: `MemWrite` (00_scope.md section 7). -/
def Memory.writeRun : Memory → Nat → List Byte → Memory
  | m, _, [] => m
  | m, i, b :: bs => Memory.writeRun (Memory.write m i b) (i + 1) bs

/-- The `n` values from index `i` up, in ascending order: `MemRead` (00_scope.md section 7). -/
def Memory.readRun (m : Memory) : Nat → Nat → List Byte
  | _, 0 => []
  | i, n + 1 => m.read i :: Memory.readRun m (i + 1) n

/-- Indexes strictly rising from `lo` on, all below 512, and no entry equal to the unlisted value. -/
def Memory.wfFrom : Nat → Memory → Bool
  | _, [] => true
  | lo, c :: m =>
    decide (lo ≤ c.1) && decide (c.1 < nslot) && decide (c.2 ≠ Memory.unlisted) && Memory.wfFrom (c.1 + 1) m

/-- The canonical form of a slot array (log entry 8). -/
def Memory.wf (m : Memory) : Bool := Memory.wfFrom 0 m

/-! ## Outputs and responses -/

/-- `emit A`: append one output to the trace. -/
def State.emit (s : State) (o : Output) : State := { s with trace := s.trace ++ [o] }

/-- `respond(status, data)` (R57). -/
def State.respond (s : State) (st : Status) (data : List Byte) : State := s.emit (.rsp st data)

/-- A command that ends with status OK. -/
def answer (s : State) (data : List Byte) : Host.Outcome State Fault Refusal := .next (s.respond .ok data)

/-- `raise X`: the command ends with no state written and the response `Rsp(code(X), [])`. This is what the block
has instead of taking an exception (R117); nothing is saved and there is no return (R118). -/
def raise (st : Status) (s : State) : Host.Outcome State Fault Refusal := .next (s.respond st [])

/-- A transaction that matches no command (R55, R111). -/
def raiseIllegal (s : State) : Host.Outcome State Fault Refusal := raise .illegalCommand s

/-- A dropped event: no state change, no output (R60, R88). -/
def dropEvent (s : State) : Host.Outcome State Fault Refusal := .next s

/-! ## Link control -/

/-- `brk_o <- 0`, with output `BrkOff` if it was 1 (R102, R126). -/
def State.releaseBreak (s : State) : State :=
  if s.brk then { s with brk := false }.emit .brkOff else s

/-- `teardown()` (R102). -/
def State.teardown (s : State) : State :=
  { s.releaseBreak with txstate := .off, txidx := 0, tmr := 0, dstate := .idle, cursor := 0 }

/-- `MODE <- m ; dir_o <- l ; emit Dir(l)` (R103, R104). -/
def State.setMode (s : State) (m : Mode) (l : Bool) : State :=
  { s with mode := m, dir := l }.emit (.dir l)

/-- `Reset` (R126): every element of R7 at its reset value; the break is released and the direction de-asserted in
the trace. What lies outside the block (pending labels, `drv_ok_i`, the trace so far) stays (log entry 14). -/
def State.applyReset (s : State) : State :=
  let t := s.releaseBreak
  { State.reset with pending := t.pending, drvOk := t.drvOk, trace := t.trace }.emit (.dir false)

/-! ## Receiver -/

/-- The decoder acts only while `MODE = 2`; otherwise the event is dropped (R88). -/
def whenReceiving (s : State) (act : Host.Outcome State Fault Refusal) : Host.Outcome State Fault Refusal :=
  match s.mode with
  | .receive => act
  | .stopped => dropEvent s
  | .transmit => dropEvent s

/-- `link_fault()` (R96). -/
def State.linkFault (s : State) : State :=
  let t := s.emit .rxFlush
  match s.dstate with
  | .idle => t
  | .breakDetected => { t with dstate := .linkError }
  | .receiving => { t with dstate := .linkError }
  | .frameDone => { t with dstate := .linkError }
  | .linkError => { t with dstate := .linkError }

/-- `consume(R)` (R91): the bytes that fit before slot 512 is passed are written at the cursor, the rest dropped. -/
def State.consume (s : State) (r : List Byte) : Host.Outcome State Fault Refusal :=
  if s.cursor.toNat ≤ nslot then
    let m := min r.length (nslot - s.cursor.toNat)
    .next { s with
      rxslot := s.rxslot.writeRun s.cursor.toNat (r.take m)
      cursor := BitVec.ofNat 10 (s.cursor.toNat + m)
      dstate := if s.cursor.toNat + m = nslot then .frameDone else s.dstate }
  else .fault .slotIndexOutOfRange

/-- The break re-arms the decoder: `emit RxFlush ; CURSOR <- 0 ; DSTATE <- BreakDetected` (R89). -/
def State.rearm (s : State) : State :=
  { s.emit .rxFlush with cursor := 0, dstate := .breakDetected }

end Sys2Proof.Machine
end

