-- ==== Sys2Proof/Machine/FrameBufferRead.lean ====
section
/-! DEFINITION. The commands that read the receive buffer: GETUNI, GETRNG, GETCH (41_framebuffer_read.md). -/

namespace Sys2Proof.Machine

/-- GETUNI (R71). -/
def execGetuni (s : State) : Host.Outcome State Fault Refusal :=
  answer s (s.rxslot.readRun 0 nslot)

/-- GETRNG (R72). -/
def execGetrng (c a : Field) (s : State) : Host.Outcome State Fault Refusal :=
  if rangeOk a c then answer s (s.rxslot.readRun (slotIndex a) c.toNat)
  else raise .outOfRange s

/-- GETCH (R73). -/
def execGetch (a : Field) (s : State) : Host.Outcome State Fault Refusal :=
  if addressOk a then answer s [s.rxslot.read (slotIndex a)]
  else raise .outOfRange s

end Sys2Proof.Machine
end

