-- ==== Sys2Proof/Machine/FrameBufferWrite.lean ====
section
/-! DEFINITION. The commands that write the send buffer: WRITE, SETCH, SETUNI (40_framebuffer_write.md). -/

namespace Sys2Proof.Machine

/-- WRITE (R67). A payload of another length than `l` is `IllegalCommand` (R53). -/
def execWrite (l o : Field) (p : List Byte) (s : State) : Host.Outcome State Fault Refusal :=
  if p.length = l.toNat then
    if offsetOk o l then answer { s with txslot := s.txslot.writeRun o.toNat p } []
    else raise .outOfRange s
  else raiseIllegal s

/-- SETCH (R68). -/
def execSetch (v : Byte) (a : Field) (s : State) : Host.Outcome State Fault Refusal :=
  if addressOk a then answer { s with txslot := s.txslot.write (slotIndex a) v } []
  else raise .outOfRange s

/-- SETUNI (R69). A payload of another length than 512 is `IllegalCommand` (R53). -/
def execSetuni (p : List Byte) (s : State) : Host.Outcome State Fault Refusal :=
  if p.length = nslot then answer { s with txslot := s.txslot.writeRun 0 p } []
  else raiseIllegal s

end Sys2Proof.Machine
end

