-- ==== Sys2Proof/Machine/LinkControl.lean ====
section
/-! DEFINITION. The link control commands: START, STOP, FLUSH, GETSTAT (44_link_controller.md). -/

namespace Sys2Proof.Machine

/-- START (R103): tear down, configure the link, then install the new worker unless the driver failed. -/
def execStart (m : StartMode) (s : State) : Host.Outcome State Fault Refusal :=
  let t := s.teardown.emit .linkCfg
  match s.drvOk, m with
  | false, _ => .next ((t.setMode .stopped false).respond .driverError [])
  | true, .tx => answer { t.setMode .transmit true with txstate := .waitIdle } []
  | true, .rx => answer (t.setMode .receive false) []

/-- STOP (R104). -/
def execStop (s : State) : Host.Outcome State Fault Refusal :=
  answer (s.teardown.setMode .stopped false) []

/-- FLUSH (R105). -/
def execFlush (s : State) : Host.Outcome State Fault Refusal :=
  answer (s.emit .rxFlush) []

/-- GETSTAT (R106). -/
def execGetstat (s : State) : Host.Outcome State Fault Refusal :=
  answer s [statusByte s.dstate s.mode]

end Sys2Proof.Machine
end

