-- ==== Sys2Proof/Machine/Receiver.lean ====
section
/-! DEFINITION. The receiver decoder: the meanings of the six events (43_receiver.md). -/

namespace Sys2Proof.Machine

/-- EV_DATA (R90). A byte run that is empty or of another length than `n` is no Data event and is dropped
(R60; log entry 7). -/
def execEvData (n : Field) (b : List Byte) (s : State) : Host.Outcome State Fault Refusal :=
  whenReceiving s <|
    if b.length = n.toNat then
      match b with
      | [] => dropEvent s
      | first :: rest =>
        match s.dstate with
        | .breakDetected =>
          if first = 0#8 then { s with cursor := 0, dstate := .receiving }.consume rest
          else .next { s with dstate := .frameDone }
        | .receiving => s.consume (first :: rest)
        | .idle => dropEvent s
        | .frameDone => dropEvent s
        | .linkError => dropEvent s
    else dropEvent s

/-- EV_BREAK (R89). -/
def execEvBreak (s : State) : Host.Outcome State Fault Refusal :=
  whenReceiving s <|
    match s.dstate with
    | .receiving => .next { s with dstate := .frameDone }
    | .idle => .next s.rearm
    | .frameDone => .next s.rearm
    | .linkError => .next s.rearm
    | .breakDetected => .next s.rearm

/-- EV_FERR (R92). -/
def execEvFerr (s : State) : Host.Outcome State Fault Refusal := whenReceiving s (.next s.linkFault)

/-- EV_PERR (R93). -/
def execEvPerr (s : State) : Host.Outcome State Fault Refusal := whenReceiving s (.next s.linkFault)

/-- EV_OVF (R94). -/
def execEvOvf (s : State) : Host.Outcome State Fault Refusal := whenReceiving s (.next s.linkFault)

/-- EV_BFULL (R95). -/
def execEvBfull (s : State) : Host.Outcome State Fault Refusal := whenReceiving s (.next s.linkFault)

end Sys2Proof.Machine
end

