-- ==== Sys2Proof/Machine/Dispatch.lean ====
section
/-! DEFINITION. The dispatch of an instruction to its meaning, one arm per constructor. -/

namespace Sys2Proof.Machine

def exec (i : Instr) (s : State) : Host.Outcome State Fault Refusal :=
  match i with
  | .start m => Sys2Proof.Machine.execStart m s
  | .stop => Sys2Proof.Machine.execStop s
  | .setch v a => Sys2Proof.Machine.execSetch v a s
  | .setuni p => Sys2Proof.Machine.execSetuni p s
  | .write l o p => Sys2Proof.Machine.execWrite l o p s
  | .getuni => Sys2Proof.Machine.execGetuni s
  | .getch a => Sys2Proof.Machine.execGetch a s
  | .getrng c a => Sys2Proof.Machine.execGetrng c a s
  | .flush => Sys2Proof.Machine.execFlush s
  | .getstat => Sys2Proof.Machine.execGetstat s
  | .evData n b => Sys2Proof.Machine.execEvData n b s
  | .evBreak => Sys2Proof.Machine.execEvBreak s
  | .evFerr => Sys2Proof.Machine.execEvFerr s
  | .evPerr => Sys2Proof.Machine.execEvPerr s
  | .evOvf => Sys2Proof.Machine.execEvOvf s
  | .evBfull => Sys2Proof.Machine.execEvBfull s

end Sys2Proof.Machine
end

