-- ==== Sys2Proof/Machine/Sequencer.lean ====
section
/-! DEFINITION. The transmitter: the steps of its cycle and the labels they answer (42_transmitter.md R74 to R85), with the parameters of R5 as an argument. -/

namespace Sys2Proof.Machine

/-! ## The steps -/

/-- R75: leave TX_WAIT_IDLE and assert break. -/
def State.assertBreak (p : Params) (s : State) : State :=
  { s with txstate := .brk, brk := true, tmr := p.tBreak }.emit .brkOn

/-- R77: end of break, start of the mark. -/
def State.endBreak (p : Params) (s : State) : State :=
  { s with brk := false, txstate := .mab, tmr := p.tMab }.emit .brkOff

/-- R78: end of the mark, the snapshot point. -/
def State.takeSnapshot (s : State) : State :=
  { s with txshadow := s.txslot, txidx := 0, txstate := .sc }

/-- R79: hand over the start code. -/
def State.handStartCode (p : Params) (s : State) : State :=
  { s.emit (.txByte p.startCode) with txstate := .data }

/-- R80: hand over one payload byte; enabled with `TXIDX <= 511`. -/
def handPayload (s : State) : Host.Outcome State Fault Refusal :=
  if s.txidx.toNat < nslot then
    .next { s.emit (.txByte (s.txshadow.read s.txidx.toNat)) with
      txidx := s.txidx + 1
      txstate := if s.txidx + 1 = 512#10 then .flush else .data }
  else .fault .slotIndexOutOfRange

/-- R81: transmit completion, start of the gap. -/
def State.startGap (p : Params) (s : State) : State :=
  { s with txstate := .gap, tmr := p.tGap }

/-- R82: end of the gap. -/
def State.endGap (s : State) : State := { s with txstate := .waitIdle }

/-! ## The labels -/

/-- `Tick` (R76): count down in a timed state, never below 0. -/
def State.tick (s : State) : State :=
  if s.txstate.timed && decide (0 < s.tmr) then { s with tmr := s.tmr - 1 } else s

/-- `TxReady`: the byte offered is accepted in TX_SC and TX_DATA (R79, R80); nothing is offered elsewhere (D21). -/
def txReady (p : Params) (s : State) : Host.Outcome State Fault Refusal :=
  match s.txstate with
  | .sc => .next (s.handStartCode p)
  | .data => handPayload s
  | .off => .next s
  | .waitIdle => .next s
  | .brk => .next s
  | .mab => .next s
  | .flush => .next s
  | .gap => .next s

/-- `TxDone(ok)`: failure is not distinguished from success (R83); ignored where nobody waits (D21). -/
def State.txDone (p : Params) (_ok : Bool) (s : State) : State :=
  match s.txstate with
  | .waitIdle => s.assertBreak p
  | .flush => s.startGap p
  | .off => s
  | .brk => s
  | .mab => s
  | .sc => s
  | .data => s
  | .gap => s

/-- The internal expiry steps (R77, R78, R82), each enabled only at `TMR = 0`; a slot in which none is enabled
changes nothing (log entry 4). -/
def State.internal (p : Params) (s : State) : State :=
  match s.txstate with
  | .brk => if s.tmr = 0 then s.endBreak p else s
  | .mab => if s.tmr = 0 then s.takeSnapshot else s
  | .gap => if s.tmr = 0 then s.endGap else s
  | .off => s
  | .waitIdle => s
  | .sc => s
  | .data => s
  | .flush => s

/-! ## The transmit port (R29) -/

/-- `tx_valid_o` and `tx_data_o`: the byte offered, exactly in TX_SC and TX_DATA. -/
def State.offered (p : Params) (s : State) : Option Byte :=
  match s.txstate with
  | .sc => some p.startCode
  | .data => some (s.txshadow.read s.txidx.toNat)
  | .off => none
  | .waitIdle => none
  | .brk => none
  | .mab => none
  | .flush => none
  | .gap => none

/-- Whether the block waits for `TxDone`: exactly in TX_WAIT_IDLE and TX_FLUSH. -/
def State.awaitsDone (s : State) : Bool :=
  match s.txstate with
  | .waitIdle => true
  | .flush => true
  | .off => false
  | .brk => false
  | .mab => false
  | .sc => false
  | .data => false
  | .gap => false

end Sys2Proof.Machine
end

