-- ==== Sys2Proof/Machine/Deliver.lean ====
section
/-! DEFINITION. One transition: the effect of one label of 00_scope.md R6, and the placing of a table word as the next label. -/

namespace Sys2Proof.Machine

/-- A command at the host port: decoded first, then run (R116); what does not decode is `IllegalCommand` (R111).
START samples `drv_ok_i` in this transition (R31). -/
def deliverCommand (w : CmdWord) (p : List Byte) (drvOk : Bool) (s : State) : Host.Outcome State Fault Refusal :=
  match decode (.cmd w p) with
  | .ok i => exec i { s with drvOk := drvOk }
  | .error _ => raiseIllegal { s with drvOk := drvOk }

/-- An event at the receive port: decoded, then run; what does not decode is dropped (R60). -/
def deliverEvent (e : EvtWord) (b : List Byte) (s : State) : Host.Outcome State Fault Refusal :=
  match decode (.evt e b) with
  | .ok i => exec i s
  | .error _ => dropEvent s

/-- One labelled transition (R6). -/
def deliver (p : Params) (l : Label) (s : State) : Host.Outcome State Fault Refusal :=
  match l with
  | .cmd w payload drvOk => deliverCommand w payload drvOk s
  | .evt e b => deliverEvent e b s
  | .tick => .next s.tick
  | .txReady => txReady p s
  | .txDone ok => .next (s.txDone p ok)
  | .reset => .next s.applyReset
  | .internal => .next (s.internal p)

/-- The next transition under parameters `p`: the label at the head of the schedule, or when none is pending TXSEQ's
internal step if one is enabled (log entry 4). -/
def stepWith (p : Params) (s : State) : Host.Outcome State Fault Refusal :=
  match s.pending with
  | [] => .next (s.internal p)
  | l :: rest => deliver p l { s with pending := rest }

/-- The block under any instantiation: one outside the bounds of R5 is refused (R140, D44). -/
def stepInstantiated (p : Params) (s : State) : Host.Outcome State Fault Refusal :=
  if p.legal then stepWith p s else .refused .illegalParameters

/-- `s` with the transaction of a table word put first in the schedule; the level of `drv_ok_i` is the state's
(log entry 13). -/
def placeWord (s : State) (nbits w : Nat) : State :=
  match tableTransaction nbits w with
  | some (.cmd word p) => { s with pending := .cmd word p s.drvOk :: s.pending }
  | some (.evt e b) => { s with pending := .evt e b :: s.pending }
  | none => s

end Sys2Proof.Machine
end

