-- ==== Sys2Proof/Machine/Step.lean ====
section
/-! DEFINITION. The step of the machine, under its own parameters, and where the next instruction is fetched from. -/

namespace Sys2Proof.Machine

/-- One step of the block under the parameters of this instantiation (00_scope.md R5, R6). -/
def step (s : State) : Host.Outcome State Fault Refusal := stepWith Config.params s

/-- `s` with the instruction of a table word as its next transition. -/
def State.withFetchWord (s : State) (nbits w : Nat) : State := placeWord s nbits w

end Sys2Proof.Machine
end

