-- ==== Sys2Proof/Safety.lean ====
section
/-! DEFINITION. What claims about the block are stated in: its invariant (10_state.md R23), runs over labels and over steps, what of a trace is a response or a handed-over byte, and the encoding tables written out a second time. -/

namespace Sys2Proof.Machine

/-- The invariant of every reachable state: R23 (1) to (10), of which (1), (4) and the exclusion in (10) hold by the
types of `mode` and `dstate` and by `txOff` with `rxIdle`; the canonical form of the slot arrays; the width of `TMR`
(R20); and what R19 says of `TXIDX`. -/
structure Inv (p : Params) (s : State) : Prop where
  txslotWf : s.txslot.wf = true
  rxslotWf : s.rxslot.wf = true
  txshadowWf : s.txshadow.wf = true
  /-- R23 (2). -/
  txOff : s.txstate = .off ↔ s.mode ≠ .transmit
  /-- R23 (3). -/
  rxIdle : s.mode ≠ .receive → s.dstate = .idle ∧ s.cursor = 0
  /-- R23 (5). -/
  cursorLe : s.cursor.toNat ≤ 512
  /-- R23 (5). -/
  receivingRoom : s.dstate = .receiving → s.cursor.toNat ≤ 511
  /-- R23 (6). -/
  txidxLe : s.txidx.toNat ≤ 512
  /-- R23 (6). -/
  dataRoom : s.txstate = .data → s.txidx.toNat ≤ 511
  /-- R19: 0 on entry to TX_DATA. -/
  scIndex : s.txstate = .sc → s.txidx = 0
  /-- R19: 512 on leaving TX_DATA. -/
  sentIndex : s.txstate = .flush ∨ s.txstate = .gap → s.txidx = 512
  /-- R23 (7). -/
  brkIff : s.brk = true ↔ s.txstate = .brk
  /-- R23 (8). -/
  dirIff : s.dir = true ↔ s.mode = .transmit
  /-- R23 (9). -/
  tmrZero : s.txstate.timed = false → s.tmr = 0
  /-- R20: `TMR` has `TMR_W` bits. -/
  tmrWidth : s.tmr < 2 ^ p.tmrW

/-! ## Runs -/

/-- The transitions of a list of labels, one after the other (R44). -/
def runLabels (p : Params) : List Label → State → Host.Outcome State Fault Refusal
  | [], s => .next s
  | l :: ls, s =>
    match deliver p l s with
    | .next t => runLabels p ls t
    | .fault r => .fault r
    | .refused r => .refused r

/-- `n` steps of the machine under parameters `p`. -/
def runSteps (p : Params) : Nat → State → Host.Outcome State Fault Refusal
  | 0, s => .next s
  | n + 1, s =>
    match stepWith p s with
    | .next t => runSteps p n t
    | .fault r => .fault r
    | .refused r => .refused r

/-- The label that hands an instruction to the block, a command with `drv_ok_i` at the level given. -/
def labelOf (i : Instr) (drvOk : Bool) : Label :=
  match encode i with
  | .cmd w p => .cmd w p drvOk
  | .evt e b => .evt e b

/-- Whether a label leaves the running session alone: no `Reset`, and no command that decodes to START or STOP. -/
def Label.keepsSession : Label → Bool
  | .cmd w p _ =>
    match decode (.cmd w p) with
    | .ok (.start _) => false
    | .ok .stop => false
    | _ => true
  | .evt _ _ => true
  | .tick => true
  | .txReady => true
  | .txDone _ => true
  | .reset => false
  | .internal => true

/-- The schedule of one undisturbed transmit cycle, from TX_WAIT_IDLE back to TX_WAIT_IDLE, with no label more than
the steps need (R75 to R82). -/
def cycleLabels (p : Params) (ok ok' : Bool) : List Label :=
  [.txDone ok] ++ List.replicate p.tBreak .tick ++ [.internal] ++ List.replicate p.tMab .tick ++ [.internal] ++
    List.replicate 513 .txReady ++ [.txDone ok'] ++ List.replicate p.tGap .tick ++ [.internal]

/-- The command transaction is refused by the port: it answers `IllegalCommand` and changes nothing (R111); only the
port level `drv_ok_i` is that of the transition. -/
def AnswersIllegal (w : CmdWord) (payload : List Byte) : Prop :=
  ∀ (p : Params) (ok : Bool) (s : State),
    deliver p (.cmd w payload ok) s = .next { s with drvOk := ok, trace := s.trace ++ [.rsp .illegalCommand []] }

/-! ## Reading a trace -/

/-- The bytes of the `TxByte` outputs, in order. -/
def txBytes (outs : List Output) : List Byte :=
  outs.filterMap fun o =>
    match o with
    | .txByte b => some b
    | _ => none

/-- Whether an output is a response. -/
def Output.isRsp : Output → Bool
  | .rsp _ _ => true
  | .brkOn => false
  | .brkOff => false
  | .txByte _ => false
  | .rxFlush => false
  | .linkCfg => false
  | .dir _ => false

/-- R57: the length of the data of an OK response. -/
def okDataLength : Instr → Nat
  | .getuni => 512
  | .getch _ => 1
  | .getrng c _ => c.toNat
  | .getstat => 1
  | .start _ => 0
  | .stop => 0
  | .setch _ _ => 0
  | .setuni _ => 0
  | .write _ _ _ => 0
  | .flush => 0
  | .evData _ _ => 0
  | .evBreak => 0
  | .evFerr => 0
  | .evPerr => 0
  | .evOvf => 0
  | .evBfull => 0

/-- R109: exactly the operands for which a command raises `OutOfRange`, in unbounded numbers. -/
def outOfRange : Instr → Bool
  | .write l o _ => decide (512 < o.toNat + l.toNat)
  | .setch _ a => decide (a.toNat < 1 ∨ 512 < a.toNat)
  | .getch a => decide (a.toNat < 1 ∨ 512 < a.toNat)
  | .getrng c s => decide (s.toNat < 1 ∨ c.toNat < 1 ∨ 512 < s.toNat + c.toNat - 1)
  | .setuni _ => false
  | .getuni => false
  | .start _ => false
  | .stop => false
  | .flush => false
  | .getstat => false
  | .evData _ _ => false
  | .evBreak => false
  | .evFerr => false
  | .evPerr => false
  | .evOvf => false
  | .evBfull => false

/-- Whether an instruction is START. -/
def isStart : Instr → Bool
  | .start _ => true
  | .stop => false
  | .setch _ _ => false
  | .setuni _ => false
  | .write _ _ _ => false
  | .getuni => false
  | .getch _ => false
  | .getrng _ _ => false
  | .flush => false
  | .getstat => false
  | .evData _ _ => false
  | .evBreak => false
  | .evFerr => false
  | .evPerr => false
  | .evOvf => false
  | .evBfull => false

/-- The single response of a command: its status and data, from the decoded instruction and the level of
`drv_ok_i` (R57, R108 to R112). -/
def ResponseOf (w : CmdWord) (payload : List Byte) (ok : Bool) (st : Status) (data : List Byte) : Prop :=
  match decode (.cmd w payload) with
  | .error _ => st = .illegalCommand ∧ data = []
  | .ok i =>
    if outOfRange i then st = .outOfRange ∧ data = []
    else if isStart i ∧ ok = false then st = .driverError ∧ data = []
    else st = .ok ∧ data.length = okDataLength i

/-- R74: the next state of the transmit cycle. -/
def TxState.following : TxState → TxState
  | .off => .off
  | .waitIdle => .brk
  | .brk => .mab
  | .mab => .sc
  | .sc => .data
  | .data => .flush
  | .flush => .gap
  | .gap => .waitIdle

/-! ## The encoding tables, as (match, mask) pairs -/

/-- The table of R54. -/
def commandRows : List (CmdWord × CmdWord) :=
  [(0x10000000, 0xFFFFFFFE), (0x20000000, 0xFFFFFFFF), (0x30000000, 0xF00FFC00), (0x40000000, 0xFFFFFFFF),
    (0x50000000, 0xFFF00000), (0x60000000, 0xFFFFFFFF), (0x70000000, 0xFFFFFC00), (0x80000000, 0xFFF00000),
    (0x90000000, 0xFFFFFFFF), (0xA0000000, 0xFFFFFFFF)]

/-- The table of R59, without the extra condition of its first row. -/
def eventRows : List (EvtWord × EvtWord) :=
  [(0x0000, 0xFC00), (0x2000, 0xFFFF), (0x4000, 0xFFFF), (0x6000, 0xFFFF), (0x8000, 0xFFFF), (0xA000, 0xFFFF)]

/-- Whether a word is one of the ten commands (R54, R55). -/
def isCommandWord (w : CmdWord) : Bool := commandRows.any fun r => w &&& r.2 == r.1

/-- Whether a descriptor is one of the six events (R59): a row matches and a Data descriptor has `len >= 1`. -/
def isEventWord (e : EvtWord) : Bool := (eventRows.any fun r => e &&& r.2 == r.1) && e != 0

end Sys2Proof.Machine
end

