-- ==== Sys2Proof/Certificates/Slice0/Obligations.lean ====
section
/-! DEFINITION. The statements for the provers, from the numbered rules of spec/. A title and docstring say which rule, or which inference or choice, a statement formalises. -/

open Sys2Proof Sys2Proof.Machine

/-! ## Encoding -/

/-- Every well-formed instruction is what its own encoding decodes to, with every operand at every value. -/
def Obligations.DecodeOfEncode : Prop :=
  ∀ i : Instr, i.wellFormed = true → decode (encode i) = .ok i

/-- Whatever decodes is well formed, and encoding it gives the transaction back: no bit of a word is dropped. -/
def Obligations.EncodeOfDecode : Prop :=
  ∀ (x : Transaction) (i : Instr), decode x = .ok i → i.wellFormed = true ∧ encode i = x

/-- R52: a command word is its four fields, the payload has the length the word fixes, and a command that does not
use a field carries 0 in it. -/
def Obligations.CommandWordIsItsFields : Prop :=
  (∀ w : CmdWord,
    w.toNat = (wordOp w).toNat * 2 ^ 28 + (wordVal w).toNat * 2 ^ 20 + (wordB w).toNat * 2 ^ 10 + (wordA w).toNat) ∧
  (∀ (w : CmdWord) (p : List Byte) (i : Instr), decode (.cmd w p) = .ok i → p.length = payloadLength w ∧
    match i with
    | .start m => wordVal w = 0 ∧ wordB w = 0 ∧ wordA w = m.field
    | .stop => wordVal w = 0 ∧ wordB w = 0 ∧ wordA w = 0
    | .setch v a => wordVal w = v ∧ wordB w = 0 ∧ wordA w = a
    | .setuni _ => wordVal w = 0 ∧ wordB w = 0 ∧ wordA w = 0
    | .write l o _ => wordVal w = 0 ∧ wordB w = l ∧ wordA w = o
    | .getuni => wordVal w = 0 ∧ wordB w = 0 ∧ wordA w = 0
    | .getch a => wordVal w = 0 ∧ wordB w = 0 ∧ wordA w = a
    | .getrng c s => wordVal w = 0 ∧ wordB w = c ∧ wordA w = s
    | .flush => wordVal w = 0 ∧ wordB w = 0 ∧ wordA w = 0
    | .getstat => wordVal w = 0 ∧ wordB w = 0 ∧ wordA w = 0
    | .evData _ _ | .evBreak | .evFerr | .evPerr | .evOvf | .evBfull => False)

/-- The match and mask table of R54: each row selects its command, and the operands are the fields. -/
def Obligations.CommandTableSelectsCommands : Prop :=
  ∀ (w : CmdWord) (p : List Byte), p.length = payloadLength w →
    (w &&& 0xFFFFFFFE = 0x10000000 → decode (.cmd w p) = .ok (.start (if w.getLsbD 0 then .rx else .tx))) ∧
    (w &&& 0xFFFFFFFF = 0x20000000 → decode (.cmd w p) = .ok .stop) ∧
    (w &&& 0xF00FFC00 = 0x30000000 → decode (.cmd w p) = .ok (.setch (w.extractLsb' 20 8) (w.extractLsb' 0 10))) ∧
    (w &&& 0xFFFFFFFF = 0x40000000 → decode (.cmd w p) = .ok (.setuni p)) ∧
    (w &&& 0xFFF00000 = 0x50000000 →
      decode (.cmd w p) = .ok (.write (w.extractLsb' 10 10) (w.extractLsb' 0 10) p)) ∧
    (w &&& 0xFFFFFFFF = 0x60000000 → decode (.cmd w p) = .ok .getuni) ∧
    (w &&& 0xFFFFFC00 = 0x70000000 → decode (.cmd w p) = .ok (.getch (w.extractLsb' 0 10))) ∧
    (w &&& 0xFFF00000 = 0x80000000 →
      decode (.cmd w p) = .ok (.getrng (w.extractLsb' 10 10) (w.extractLsb' 0 10))) ∧
    (w &&& 0xFFFFFFFF = 0x90000000 → decode (.cmd w p) = .ok .flush) ∧
    (w &&& 0xFFFFFFFF = 0xA0000000 → decode (.cmd w p) = .ok .getstat)

/-- The rows the decoder reads are the (match, mask) pairs of R54, and no word matches two of them: a sentence the
spec marks as its own inference. So the order in which the decoder tries its rows does not matter: whichever row a word
matches is the command it decodes to. -/
def Obligations.CommandRowsAreDisjoint : Prop :=
  (allCmds.map fun c => (c.pattern, c.mask)) = commandRows ∧
  (∀ w : CmdWord, (allCmds.filter fun c => c.selects w).length ≤ 1) ∧
  (∀ (c : CmdOp) (w : CmdWord) (p : List Byte), c.selects w = true → p.length = payloadLength w →
    decode (.cmd w p) = .ok (buildCmd c w p))

/-- R53: the payload length is a function of the word alone, a transaction with another number of payload bytes is
answered `IllegalCommand` with no state change, and the bytes reach the instruction in the order they arrived. -/
def Obligations.PayloadLengthFixedByWord : Prop :=
  (∀ w : CmdWord, payloadLength w =
    if isCommandWord w then
      if wordOp w = 0x4 then 512 else if wordOp w = 0x5 then (wordB w).toNat else 0
    else 0) ∧
  (∀ (w : CmdWord) (p : List Byte), p.length ≠ payloadLength w → AnswersIllegal w p) ∧
  (∀ (w : CmdWord) (p : List Byte), isCommandWord w = true → p.length = payloadLength w →
    ∃ i, decode (.cmd w p) = .ok i ∧ encode i = .cmd w p)

/-- R55, R111: a word that matches no row of the table is illegal, is answered `IllegalCommand` whatever its payload
and changes no state, and so is a payload of the wrong length; the illegal words are the ones with `op` 0x0 or 0xB to
0xF or with a 1 where a pattern shows 0. -/
def Obligations.IllegalWordsAnswered : Prop :=
  (∀ (w : CmdWord) (p : List Byte), isCommandWord w = false → payloadLength w = 0 ∧ AnswersIllegal w p) ∧
  (∀ (w : CmdWord) (p : List Byte), p.length ≠ payloadLength w → AnswersIllegal w p) ∧
  (∀ w : CmdWord, isCommandWord w = false ↔
    wordOp w = 0x0 ∨ 0xB ≤ (wordOp w).toNat ∨
    (wordOp w = 0x1 ∧ (wordVal w ≠ 0 ∨ wordB w ≠ 0 ∨ (wordA w ≠ 0 ∧ wordA w ≠ 1))) ∨
    (wordOp w = 0x3 ∧ wordB w ≠ 0) ∨
    ((wordOp w = 0x5 ∨ wordOp w = 0x8) ∧ wordVal w ≠ 0) ∨
    (wordOp w = 0x7 ∧ (wordVal w ≠ 0 ∨ wordB w ≠ 0)) ∨
    ((wordOp w = 0x2 ∨ wordOp w = 0x4 ∨ wordOp w = 0x6 ∨ wordOp w = 0x9 ∨ wordOp w = 0xA) ∧
      (wordVal w ≠ 0 ∨ wordB w ≠ 0 ∨ wordA w ≠ 0)))

/-- R59: the event table, row by row; a descriptor carries `len` data bytes (R58). -/
def Obligations.EventTableSelectsEvents : Prop :=
  ∀ (e : EvtWord) (b : List Byte), b.length = (evtLen e).toNat →
    (e &&& 0xFC00 = 0x0000 → 1 ≤ (evtLen e).toNat → decode (.evt e b) = .ok (.evData (evtLen e) b)) ∧
    (e &&& 0xFFFF = 0x2000 → decode (.evt e b) = .ok .evBreak) ∧
    (e &&& 0xFFFF = 0x4000 → decode (.evt e b) = .ok .evFerr) ∧
    (e &&& 0xFFFF = 0x6000 → decode (.evt e b) = .ok .evPerr) ∧
    (e &&& 0xFFFF = 0x8000 → decode (.evt e b) = .ok .evOvf) ∧
    (e &&& 0xFFFF = 0xA000 → decode (.evt e b) = .ok .evBfull)

/-- R60: a descriptor that matches no row of R59 is dropped, and those are the reserved types, a 1 in `E[12:10]`, an
empty Data descriptor and a condition descriptor with a length. -/
def Obligations.ReservedDescriptorsDropped : Prop :=
  (∀ e : EvtWord, isEventWord e = false ↔
    6 ≤ (evtType e).toNat ∨ evtReserved e ≠ 0 ∨ (evtType e = 0 ∧ evtLen e = 0) ∨ (evtType e ≠ 0 ∧ evtLen e ≠ 0)) ∧
  (∀ (e : EvtWord) (b : List Byte) (p : Params) (s : State), isEventWord e = false →
    deliver p (.evt e b) s = .next s)

/-- Words of every family, written out from the field assembly of R54 and R59. -/
def Obligations.SampleWordsDecode : Prop :=
  decode (.cmd 0x10000001 []) = .ok (.start .rx) ∧
  decode (.cmd 0x3FF00006 []) = .ok (.setch 255 6) ∧
  decode (.cmd 0x50000805 [0xFF, 0x80]) = .ok (.write 2 5 [0xFF, 0x80]) ∧
  decode (.cmd 0x70000200 []) = .ok (.getch 512) ∧
  decode (.cmd 0x80000C0A []) = .ok (.getrng 3 10) ∧
  decode (.cmd 0xA0000000 []) = .ok .getstat ∧
  decode (.evt 0x0003 [9, 9, 9]) = .ok (.evData 3 [9, 9, 9]) ∧
  decode (.evt 0x2000 []) = .ok .evBreak ∧
  decode (.evt 0xA000 []) = .ok .evBfull

/-! ## The step -/

/-- A step whose next label carries a transaction that decodes to `i` is `exec i` on the state without that label; a
command also brings the level of `drv_ok_i`. The schedule is the model's (log entry 3). -/
def Obligations.StepRunsDecodedInstruction : Prop :=
  (∀ (s : State) (w : CmdWord) (p : List Byte) (ok : Bool) (rest : List Label) (i : Instr),
    s.pending = .cmd w p ok :: rest → decode (.cmd w p) = .ok i →
    step s = exec i { s with pending := rest, drvOk := ok }) ∧
  (∀ (s : State) (e : EvtWord) (b : List Byte) (rest : List Label) (i : Instr),
    s.pending = .evt e b :: rest → decode (.evt e b) = .ok i →
    step s = exec i { s with pending := rest })

/-- Every other step: the labels that carry no instruction, a transaction that does not decode, and an empty schedule,
in which TXSEQ's internal step is taken if one is enabled. The schedule and the empty schedule are the model's choice
(log entries 3 and 4), and so is the drop of an event whose byte run has another length than its descriptor says
(log entry 7); the answer to an illegal command and the drop of a reserved descriptor are R111 and R60. -/
def Obligations.StepServesOtherLabels : Prop :=
  ∀ (p : Params) (s : State) (rest : List Label),
    (∀ w payload ok, s.pending = .cmd w payload ok :: rest → (∀ i, decode (.cmd w payload) ≠ .ok i) →
      stepWith p s = .next { s with
        pending := rest, drvOk := ok, trace := s.trace ++ [.rsp .illegalCommand []] }) ∧
    (∀ e b, s.pending = .evt e b :: rest → (∀ i, decode (.evt e b) ≠ .ok i) →
      stepWith p s = .next { s with pending := rest }) ∧
    (s.pending = .tick :: rest → stepWith p s = .next { s with pending := rest }.tick) ∧
    (s.pending = .txReady :: rest → stepWith p s = txReady p { s with pending := rest }) ∧
    (∀ ok, s.pending = .txDone ok :: rest → stepWith p s = .next ({ s with pending := rest }.txDone p ok)) ∧
    (s.pending = .reset :: rest → stepWith p s = .next { s with pending := rest }.applyReset) ∧
    (s.pending = .internal :: rest → stepWith p s = .next ({ s with pending := rest }.internal p)) ∧
    (s.pending = [] → stepWith p s = .next (s.internal p))

/-- Running the machine on a schedule is running its labels one after the other: the steps of the machine and the
labelled transitions of R6 are the same runs. The schedule is the model's (log entry 3). -/
def Obligations.StepsRunTheSchedule : Prop :=
  ∀ (p : Params) (ls rest : List Label) (s : State),
    runSteps p ls.length { s with pending := ls ++ rest } = runLabels p ls { s with pending := rest }

/-! ## Reset -/

/-- R32: the value of every element after Reset, in the machine's reset state and after a `Reset` from any state;
from there nothing happens until a command arrives. -/
def Obligations.ResetStateValues : Prop :=
  (∀ t : State, (t = State.reset ∨ ∃ p s, deliver p .reset s = .next t) →
    (∀ i < 512, t.txslot.read i = 0x00 ∧ t.rxslot.read i = 0x00 ∧ t.txshadow.read i = 0x00) ∧
    t.mode.code = 0 ∧ t.dstate.code = 0 ∧ t.cursor = 0 ∧ t.txstate.code = 0 ∧ t.txidx = 0 ∧ t.tmr = 0 ∧
    t.brk = false ∧ t.dir = false) ∧
  (∀ (p : Params) (l : Label), (∀ w payload ok, l ≠ .cmd w payload ok) → l ≠ .reset →
    deliver p l State.reset = .next State.reset)

/-- R126: Reset from any state, with its outputs. What lies outside the block stays (log entry 14). -/
def Obligations.ResetFromAnyState : Prop :=
  ∀ (p : Params) (s : State), ∃ t, deliver p .reset s = .next t ∧
    t = { State.reset with
      pending := s.pending, drvOk := s.drvOk
      trace := s.trace ++ (if s.brk then [.brkOff] else []) ++ [.dir false] }

/-- The invariant holds at reset, under every legal instantiation and under the machine's own. -/
def Obligations.InvariantHoldsAtReset : Prop :=
  (∀ p : Params, p.legal = true → Inv p State.reset) ∧ Inv Config.params State.reset

/-- R23, R19, R20: every step keeps the invariant, under every legal instantiation and under the machine's own. -/
def Obligations.InvariantKeptByEveryStep : Prop :=
  (∀ (p : Params) (s t : State), p.legal = true → Inv p s → stepWith p s = .next t → Inv p t) ∧
  (∀ s t : State, Inv Config.params s → step s = .next t → Inv Config.params t)

/-- R114: no operation is fatal: from every state that meets the invariant every transition answers a next state, and
so does every step. -/
def Obligations.NoTransitionStops : Prop :=
  ∀ (p : Params) (s : State), p.legal = true → Inv p s →
    (∀ l : Label, ∃ t, deliver p l s = .next t) ∧ ∃ t, stepWith p s = .next t

/-- The one fault of the model (log entry 9): exactly an index beyond the 512 slots where an array is indexed, that is
`TXIDX` above 511 in TX_DATA or `CURSOR` above 512 in Receiving in Receive mode; no transition is refused. -/
def Obligations.FaultsOnlyBeyondTheSlots : Prop :=
  (∀ (p : Params) (l : Label) (s : State) (r : Fault), deliver p l s = .fault r →
    (s.txstate = .data ∧ 511 < s.txidx.toNat) ∨
      (s.mode = .receive ∧ s.dstate = .receiving ∧ 512 < s.cursor.toNat)) ∧
  (∀ (p : Params) (l : Label) (s : State) (r : Refusal), deliver p l s ≠ .refused r) ∧
  (∀ (p : Params) (s : State), s.txstate = .data → 511 < s.txidx.toNat →
    deliver p .txReady s = .fault .slotIndexOutOfRange) ∧
  (∀ (n : Field) (b : List Byte) (s : State), (Instr.evData n b).wellFormed = true → s.mode = .receive →
    s.dstate = .receiving → 512 < s.cursor.toNat → exec (.evData n b) s = .fault .slotIndexOutOfRange)

/-- R140, R5: an instantiation outside the bounds is refused, a legal one runs. -/
def Obligations.IllegalInstantiationRefused : Prop :=
  ∀ (p : Params) (s : State),
    ((p.tmrW < 14 ∨ p.tBreak < 88 ∨ 2 ^ p.tmrW ≤ p.tBreak ∨ p.tMab < 12 ∨ 2 ^ p.tmrW ≤ p.tMab ∨ 2 ^ p.tmrW ≤ p.tGap) →
      stepInstantiated p s = .refused .illegalParameters) ∧
    ((14 ≤ p.tmrW ∧ 88 ≤ p.tBreak ∧ p.tBreak < 2 ^ p.tmrW ∧ 12 ≤ p.tMab ∧ p.tMab < 2 ^ p.tmrW ∧
        p.tGap < 2 ^ p.tmrW) →
      stepInstantiated p s = stepWith p s)

/-! ## Buffer commands -/

/-- R66, R70: the sums of the range checks are formed in 11 bits and cannot wrap or go below 1, so the checks are the
tests of the document in unbounded numbers. -/
def Obligations.RangeChecksDoNotWrap : Prop :=
  (∀ o l : Field, (zext11 o + zext11 l).toNat = o.toNat + l.toNat ∧ o.toNat + l.toNat ≤ 2046 ∧
    (offsetOk o l = false ↔ o.toNat + l.toNat > 512)) ∧
  (∀ a : Field, (addressOk a = true ↔ 1 ≤ a.toNat ∧ a.toNat ≤ 512) ∧ (addressOk a = true → slotIndex a < 512)) ∧
  (∀ s c : Field, 1 ≤ s.toNat → 1 ≤ c.toNat →
    (zext11 s + zext11 c - 1).toNat = s.toNat + c.toNat - 1 ∧ 1 ≤ s.toNat + c.toNat - 1 ∧
    s.toNat + c.toNat - 1 ≤ 2045) ∧
  (∀ s c : Field, rangeOk s c = false ↔ s.toNat < 1 ∨ c.toNat < 1 ∨ s.toNat + c.toNat - 1 > 512)

/-- R67, WRITE: encoding, effect on every slot, frame, failure and illegal forms. -/
def Obligations.WriteStoresItsRun : Prop :=
  (∀ (l o : Field) (p : List Byte),
    encode (.write l o p) = .cmd (BitVec.ofNat 32 (0x50000000 + l.toNat * 2 ^ 10 + o.toNat)) p) ∧
  (∀ (w : CmdWord) (p : List Byte), wordOp w = 0x5 → wordVal w ≠ 0 → AnswersIllegal w p) ∧
  (∀ (l o : Field) (p : List Byte) (s : State), p.length = l.toNat → s.txslot.wf = true →
    (o.toNat + l.toNat > 512 →
      exec (.write l o p) s = .next { s with trace := s.trace ++ [.rsp .outOfRange []] }) ∧
    (o.toNat + l.toNat ≤ 512 → ∃ t, exec (.write l o p) s = .next t ∧
      t = { s with txslot := t.txslot, trace := s.trace ++ [.rsp .ok []] } ∧ t.txslot.wf = true ∧
      ∀ j, t.txslot.read j =
        if o.toNat ≤ j ∧ j < o.toNat + l.toNat then p.getD (j - o.toNat) 0 else s.txslot.read j))

/-- R68, SETCH: encoding, effect on every slot, frame, failure and illegal forms. -/
def Obligations.SetchStoresOneSlot : Prop :=
  (∀ (v : Byte) (a : Field),
    encode (.setch v a) = .cmd (BitVec.ofNat 32 (0x30000000 + v.toNat * 2 ^ 20 + a.toNat)) []) ∧
  (∀ (w : CmdWord) (p : List Byte), wordOp w = 0x3 → wordB w ≠ 0 → AnswersIllegal w p) ∧
  (∀ (v : Byte) (a : Field) (s : State), s.txslot.wf = true →
    (a.toNat < 1 ∨ a.toNat > 512 →
      exec (.setch v a) s = .next { s with trace := s.trace ++ [.rsp .outOfRange []] }) ∧
    (1 ≤ a.toNat ∧ a.toNat ≤ 512 → ∃ t, exec (.setch v a) s = .next t ∧
      t = { s with txslot := t.txslot, trace := s.trace ++ [.rsp .ok []] } ∧ t.txslot.wf = true ∧
      ∀ j, t.txslot.read j = if j = a.toNat - 1 then v else s.txslot.read j))

/-- R69, SETUNI: encoding, effect on every slot, frame and illegal forms. -/
def Obligations.SetuniReplacesTheUniverse : Prop :=
  (∀ p : List Byte, encode (.setuni p) = .cmd 0x40000000 p) ∧
  (∀ (w : CmdWord) (p : List Byte), wordOp w = 0x4 → (w.extractLsb' 0 28 ≠ 0 ∨ p.length ≠ 512) → AnswersIllegal w p) ∧
  (∀ (p : List Byte) (s : State), p.length = 512 → s.txslot.wf = true →
    ∃ t, exec (.setuni p) s = .next t ∧
      t = { s with txslot := t.txslot, trace := s.trace ++ [.rsp .ok []] } ∧ t.txslot.wf = true ∧
      t.txslot.readRun 0 512 = p)

/-- R71, GETUNI: encoding, answer, frame and illegal forms. -/
def Obligations.GetuniReturnsTheUniverse : Prop :=
  encode .getuni = .cmd 0x60000000 [] ∧
  (∀ (w : CmdWord) (p : List Byte), wordOp w = 0x6 → w.extractLsb' 0 28 ≠ 0 → AnswersIllegal w p) ∧
  (∀ s : State, ∃ d : List Byte,
    exec .getuni s = .next { s with trace := s.trace ++ [.rsp .ok d] } ∧
    d.length = 512 ∧ ∀ k < 512, d[k]? = some (s.rxslot.read k))

/-- R72, GETRNG: encoding, answer, frame, failure and illegal forms. -/
def Obligations.GetrngReturnsItsRun : Prop :=
  (∀ c a : Field, encode (.getrng c a) = .cmd (BitVec.ofNat 32 (0x80000000 + c.toNat * 2 ^ 10 + a.toNat)) []) ∧
  (∀ (w : CmdWord) (p : List Byte), wordOp w = 0x8 → wordVal w ≠ 0 → AnswersIllegal w p) ∧
  (∀ (c a : Field) (s : State),
    (a.toNat < 1 ∨ c.toNat < 1 ∨ a.toNat + c.toNat - 1 > 512 →
      exec (.getrng c a) s = .next { s with trace := s.trace ++ [.rsp .outOfRange []] }) ∧
    (1 ≤ a.toNat → 1 ≤ c.toNat → a.toNat + c.toNat - 1 ≤ 512 → ∃ d : List Byte,
      exec (.getrng c a) s = .next { s with trace := s.trace ++ [.rsp .ok d] } ∧
      d.length = c.toNat ∧ ∀ k < c.toNat, d[k]? = some (s.rxslot.read (a.toNat - 1 + k))))

/-- R73, GETCH: encoding, answer, frame, failure and illegal forms. -/
def Obligations.GetchReturnsItsSlot : Prop :=
  (∀ a : Field, encode (.getch a) = .cmd (BitVec.ofNat 32 (0x70000000 + a.toNat)) []) ∧
  (∀ (w : CmdWord) (p : List Byte), wordOp w = 0x7 → w.extractLsb' 10 18 ≠ 0 → AnswersIllegal w p) ∧
  (∀ (a : Field) (s : State),
    (a.toNat < 1 ∨ a.toNat > 512 →
      exec (.getch a) s = .next { s with trace := s.trace ++ [.rsp .outOfRange []] }) ∧
    (1 ≤ a.toNat ∧ a.toNat ≤ 512 →
      exec (.getch a) s = .next { s with trace := s.trace ++ [.rsp .ok [s.rxslot.read (a.toNat - 1)]] }))

/-- R65: the alias expansions have the same state change, the same status and the same data. -/
def Obligations.AliasesAgree : Prop :=
  (∀ (v : Byte) (a : Field) (s : State), 1 ≤ a.toNat → exec (.setch v a) s = exec (.write 1 (a - 1) [v]) s) ∧
  (∀ (p : List Byte) (s : State), p.length = 512 → exec (.setuni p) s = exec (.write 512 0 p) s) ∧
  (∀ s : State, exec .getuni s = exec (.getrng 512 1) s) ∧
  (∀ (a : Field) (s : State), exec (.getch a) s = exec (.getrng 1 a) s)

/-- R109: `OutOfRange` is raised exactly by the operands named there and the operation is then a no-op. -/
def Obligations.OutOfRangeIsANoOp : Prop :=
  ∀ (i : Instr) (s : State), i.wellFormed = true →
    (outOfRange i = true → exec i s = .next { s with trace := s.trace ++ [.rsp .outOfRange []] }) ∧
    (outOfRange i = false → ∀ t, exec i s = .next t →
      ∃ outs, t.trace = s.trace ++ outs ∧ ∀ d, Output.rsp .outOfRange d ∉ outs)

/-- R39: reads change nothing and repeat, writes are idempotent, and a response already given stays as it is. -/
def Obligations.ReadsArePureWritesIdempotent : Prop :=
  (∀ (i : Instr) (s t u : State), i = .getuni ∨ (∃ a, i = .getch a) ∨ (∃ c a, i = .getrng c a) ∨ i = .getstat →
    exec i s = .next t → exec i t = .next u →
    t = { s with trace := t.trace } ∧ ∃ outs, t.trace = s.trace ++ outs ∧ u.trace = t.trace ++ outs) ∧
  (∀ (i : Instr) (s t u : State), (∃ l o p, i = .write l o p) ∨ (∃ v a, i = .setch v a) ∨ (∃ p, i = .setuni p) →
    s.txslot.wf = true → exec i s = .next t → exec i t = .next u → u = { t with trace := u.trace }) ∧
  (∀ (p : Params) (l : Label) (s t : State), deliver p l s = .next t → ∃ outs, t.trace = s.trace ++ outs)

/-- R14: who may write which buffer. Commands write only the send buffer, events only the receive buffer, and the
snapshot only copies the send buffer. -/
def Obligations.BufferOwnership : Prop :=
  ∀ (p : Params) (l : Label) (s t : State), deliver p l s = .next t → l ≠ .reset →
    (t.txslot ≠ s.txslot → ∃ w payload ok, l = .cmd w payload ok) ∧
    (t.rxslot ≠ s.rxslot → s.mode = .receive ∧ ∃ e b, l = .evt e b) ∧
    (t.txshadow ≠ s.txshadow → l = .internal ∧ s.txstate = .mab ∧ s.tmr = 0 ∧ t.txshadow = s.txslot)

/-- R8: no command reads the send buffer back: what an instruction answers and does elsewhere does not depend on
`TXSLOT`. -/
def Obligations.SendBufferCannotBeRead : Prop :=
  ∀ (i : Instr) (s t : State) (m : Memory), exec i s = .next t →
    ∃ t', exec i { s with txslot := m } = .next t' ∧ t' = { t with txslot := t'.txslot }

/-- R74: the line never depends on `RXSLOT`: a transition that is no command does and outputs the same whatever the
receive buffer holds. -/
def Obligations.LineIgnoresReceiveBuffer : Prop :=
  ∀ (p : Params) (l : Label) (s t : State) (m : Memory), (∀ w payload ok, l ≠ .cmd w payload ok) →
    deliver p l s = .next t →
    ∃ t', deliver p l { s with rxslot := m } = .next t' ∧ t' = { t with rxslot := t'.rxslot }

/-! ## Link control and responses -/

/-- R103 with R102, START: encoding, all three outcomes with their outputs in order, and illegal forms. -/
def Obligations.StartInstallsOneWorker : Prop :=
  encode (.start .tx) = .cmd 0x10000000 [] ∧ encode (.start .rx) = .cmd 0x10000001 [] ∧
  (∀ (w : CmdWord) (p : List Byte), wordOp w = 0x1 → w.extractLsb' 1 27 ≠ 0 → AnswersIllegal w p) ∧
  (∀ s : State, s.drvOk = true → exec (.start .tx) s = .next { s with
    brk := false, txidx := 0, tmr := 0, dstate := .idle, cursor := 0
    mode := .transmit, dir := true, txstate := .waitIdle
    trace := s.trace ++ (if s.brk then [.brkOff] else []) ++ [.linkCfg, .dir true, .rsp .ok []] }) ∧
  (∀ s : State, s.drvOk = true → exec (.start .rx) s = .next { s with
    brk := false, txidx := 0, tmr := 0, dstate := .idle, cursor := 0
    mode := .receive, dir := false, txstate := .off
    trace := s.trace ++ (if s.brk then [.brkOff] else []) ++ [.linkCfg, .dir false, .rsp .ok []] }) ∧
  (∀ (m : StartMode) (s : State), s.drvOk = false → exec (.start m) s = .next { s with
    brk := false, txidx := 0, tmr := 0, dstate := .idle, cursor := 0
    mode := .stopped, dir := false, txstate := .off
    trace := s.trace ++ (if s.brk then [.brkOff] else []) ++ [.linkCfg, .dir false, .rsp .driverError []] })

/-- R104 with R102, STOP: encoding, effect with its outputs in order, and illegal forms. -/
def Obligations.StopStopsTheWorker : Prop :=
  encode .stop = .cmd 0x20000000 [] ∧
  (∀ (w : CmdWord) (p : List Byte), wordOp w = 0x2 → w.extractLsb' 0 28 ≠ 0 → AnswersIllegal w p) ∧
  (∀ s : State, exec .stop s = .next { s with
    brk := false, txstate := .off, txidx := 0, tmr := 0, dstate := .idle, cursor := 0
    mode := .stopped, dir := false
    trace := s.trace ++ (if s.brk then [.brkOff] else []) ++ [.dir false, .rsp .ok []] })

/-- R105, FLUSH: encoding, the one output, no state change, and illegal forms. -/
def Obligations.FlushOnlyAsksTheLink : Prop :=
  encode .flush = .cmd 0x90000000 [] ∧
  (∀ (w : CmdWord) (p : List Byte), wordOp w = 0x9 → w.extractLsb' 0 28 ≠ 0 → AnswersIllegal w p) ∧
  (∀ s : State, exec .flush s = .next { s with trace := s.trace ++ [.rxFlush, .rsp .ok []] })

/-- R106, GETSTAT: encoding, the byte, its exact values in states that meet the invariant, and illegal forms. -/
def Obligations.GetstatReportsModeAndDecoder : Prop :=
  encode .getstat = .cmd 0xA0000000 [] ∧
  (∀ (w : CmdWord) (p : List Byte), wordOp w = 0xA → w.extractLsb' 0 28 ≠ 0 → AnswersIllegal w p) ∧
  (∀ s : State, ∃ b : Byte, exec .getstat s = .next { s with trace := s.trace ++ [.rsp .ok [b]] } ∧
    b.toNat = s.dstate.code.toNat * 4 + s.mode.code.toNat ∧ b.toNat < 32 ∧
    ∀ p : Params, Inv p s →
      (s.mode = .stopped → b = 0x00) ∧ (s.mode = .transmit → b = 0x01) ∧
      (s.mode = .receive → b = match s.dstate with
        | .idle => 0x02 | .breakDetected => 0x06 | .receiving => 0x0A | .frameDone => 0x0E | .linkError => 0x12))

/-- R57, R108, R110, R111, R112: a command transition puts exactly one response in the trace, as its last output,
with the status and data its rule gives; no other transition puts any. `ConfigurationError` and `AllocationError` are
in no case of it; the codes are those of the table. -/
def Obligations.EveryCommandAnsweredOnce : Prop :=
  (∀ (p : Params) (l : Label) (s t : State), deliver p l s = .next t → ∃ outs, t.trace = s.trace ++ outs ∧
    ((∀ w payload ok, l ≠ .cmd w payload ok) → ∀ o ∈ outs, o.isRsp = false) ∧
    (∀ w payload ok, l = .cmd w payload ok → ∃ pre st data, outs = pre ++ [.rsp st data] ∧
      (∀ o ∈ pre, o.isRsp = false) ∧ ResponseOf w payload ok st data ∧
      st ≠ .configurationError ∧ st ≠ .allocationError)) ∧
  [Status.ok, .outOfRange, .driverError, .configurationError, .allocationError, .illegalCommand].map Status.code =
    [0, 1, 2, 3, 4, 5]

/-! ## Transmitter -/

/-- R75, R83, R81: `TxDone`, failed or not, leaves TX_WAIT_IDLE with the break asserted and TX_FLUSH with the gap
started, and is ignored in every other state; those two are the states that wait for it (R29). -/
def Obligations.DoneStartsBreakOrGap : Prop :=
  ∀ (p : Params) (ok : Bool) (s : State),
    (s.txstate = .waitIdle → deliver p (.txDone ok) s = .next { s with
      txstate := .brk, brk := true, tmr := p.tBreak, trace := s.trace ++ [.brkOn] }) ∧
    (s.txstate = .flush → deliver p (.txDone ok) s = .next { s with txstate := .gap, tmr := p.tGap }) ∧
    (s.txstate ≠ .waitIdle → s.txstate ≠ .flush → deliver p (.txDone ok) s = .next s) ∧
    (s.awaitsDone = true ↔ s.txstate = .waitIdle ∨ s.txstate = .flush)

/-- R76: a Tick counts a timed state down, never below 0, and changes nothing else; while the mode is not Transmit
it changes nothing, in states that meet the invariant. -/
def Obligations.TickCountsDown : Prop :=
  ∀ (p : Params) (s : State),
    (s.txstate = .brk ∨ s.txstate = .mab ∨ s.txstate = .gap → 0 < s.tmr →
      deliver p .tick s = .next { s with tmr := s.tmr - 1 }) ∧
    (s.tmr = 0 ∨ (s.txstate ≠ .brk ∧ s.txstate ≠ .mab ∧ s.txstate ≠ .gap) → deliver p .tick s = .next s) ∧
    (Inv p s → s.mode ≠ .transmit → deliver p .tick s = .next s)

/-- R77, R78, R82: the three internal steps, each enabled when `TMR` is 0 in its state. -/
def Obligations.ExpiryStepsAdvanceTheCycle : Prop :=
  ∀ (p : Params) (s : State),
    (s.txstate = .brk → s.tmr = 0 → deliver p .internal s = .next { s with
      brk := false, txstate := .mab, tmr := p.tMab, trace := s.trace ++ [.brkOff] }) ∧
    (s.txstate = .mab → s.tmr = 0 → deliver p .internal s = .next { s with
      txshadow := s.txslot, txidx := 0, txstate := .sc }) ∧
    (s.txstate = .gap → s.tmr = 0 → deliver p .internal s = .next { s with txstate := .waitIdle })

/-- A slot of the schedule for an internal step changes nothing where none is enabled, that is with `TMR` above 0 or
outside the timed states. R77, R78 and R82 say when a step is enabled; the slot that changes nothing is the model's
choice (log entry 4). -/
def Obligations.UnexpiredSlotChangesNothing : Prop :=
  ∀ (p : Params) (s : State), 0 < s.tmr ∨ (s.txstate ≠ .brk ∧ s.txstate ≠ .mab ∧ s.txstate ≠ .gap) →
    deliver p .internal s = .next s

/-- R79, R80, R29: `TxReady` hands over the byte offered: the start code in TX_SC, the snapshot byte at `TXIDX` in
TX_DATA, the 512th leading to TX_FLUSH; nothing is offered elsewhere. -/
def Obligations.ReadyHandsOverTheByteOffered : Prop :=
  ∀ (p : Params) (s : State),
    (s.txstate = .sc → s.offered p = some p.startCode ∧ deliver p .txReady s = .next { s with
      txstate := .data, trace := s.trace ++ [.txByte p.startCode] }) ∧
    (s.txstate = .data → s.txidx.toNat ≤ 511 → ∃ t, deliver p .txReady s = .next t ∧
      s.offered p = some (s.txshadow.read s.txidx.toNat) ∧ t.txidx.toNat = s.txidx.toNat + 1 ∧
      t = { s with
        txidx := t.txidx, txstate := if t.txidx.toNat = 512 then .flush else .data
        trace := s.trace ++ [.txByte (s.txshadow.read s.txidx.toNat)] }) ∧
    (s.txstate ≠ .sc → s.txstate ≠ .data → s.offered p = none ∧ deliver p .txReady s = .next s)

/-- R74: while no START, STOP or Reset intervenes the transmitter stays where it is or takes the next state of its
fixed order, and the mode does not change. -/
def Obligations.CycleOrderIsFixed : Prop :=
  ∀ (p : Params) (l : Label) (s t : State), l.keepsSession = true → deliver p l s = .next t →
    (t.txstate = s.txstate ∨ t.txstate = s.txstate.following) ∧ t.mode = s.mode ∧ t.dir = s.dir

/-- R86 (an inference the spec marks as its own): one undisturbed cycle from TX_WAIT_IDLE runs to TX_WAIT_IDLE and
puts the break, the mark and exactly 513 bytes in the trace: the start code and the send buffer in slot order. -/
def Obligations.OneCycleOutputTrace : Prop :=
  ∀ (p : Params) (ok ok' : Bool) (s : State), s.txstate = .waitIdle →
    ∃ t, runLabels p (cycleLabels p ok ok') s = .next t ∧
      t.trace = s.trace ++ [.brkOn, .brkOff] ++ (p.startCode :: s.txslot.readRun 0 512).map .txByte ∧
      t = { s with brk := false, txshadow := s.txslot, txidx := 512, tmr := 0, trace := t.trace }

/-- R45: snapshot isolation. Whatever commands, events, Ticks and link labels come after the snapshot point, the
bytes handed over until TX_FLUSH are the start code and the send buffer as it was at that point. -/
def Obligations.FrameCarriesTheSnapshot : Prop :=
  ∀ (p : Params) (ls : List Label) (s t : State), s.txstate = .mab → s.tmr = 0 →
    (∀ l ∈ ls, l.keepsSession = true ∧ l ≠ .internal) → runLabels p (.internal :: ls) s = .next t →
    t.txstate = .flush →
    ∃ outs, t.trace = s.trace ++ outs ∧ txBytes outs = p.startCode :: s.txslot.readRun 0 512

/-- R87 (an inference the spec marks as its own): the lower bounds in Ticks. Once the break, the mark or the gap is
entered, the transmitter leaves it only after that many Ticks. -/
def Obligations.TimedStatesLastTheirTicks : Prop :=
  ∀ (p : Params) (ls : List Label) (s t : State), (∀ l ∈ ls, l.keepsSession = true) →
    (∀ ok, s.txstate = .waitIdle → runLabels p (.txDone ok :: ls) s = .next t → t.txstate ≠ .brk →
      p.tBreak ≤ ls.count .tick) ∧
    (s.txstate = .brk → s.tmr = 0 → runLabels p (.internal :: ls) s = .next t → t.txstate ≠ .mab →
      p.tMab ≤ ls.count .tick) ∧
    (∀ ok, s.txstate = .flush → runLabels p (.txDone ok :: ls) s = .next t → t.txstate ≠ .gap →
      p.tGap ≤ ls.count .tick) ∧
    (p.legal = true → 88 ≤ p.tBreak ∧ 12 ≤ p.tMab)

/-- R84: a stalled link. Without `TxReady` the transmitter stays in TX_SC and TX_DATA, without `TxDone` in
TX_WAIT_IDLE and TX_FLUSH, for any number of transitions, and its snapshot and position stay too; only a command
touches the send buffer, and nothing touches the receive buffer. The mode is Transmit in every stalled state that meets
the invariant. -/
def Obligations.StalledLinkChangesNothing : Prop :=
  ∀ (p : Params) (ls : List Label) (s t : State), (∀ l ∈ ls, l.keepsSession = true) → runLabels p ls s = .next t →
    ((s.txstate = .sc ∨ s.txstate = .data) ∧ (∀ l ∈ ls, l ≠ .txReady)) ∨
      ((s.txstate = .waitIdle ∨ s.txstate = .flush) ∧ (∀ l ∈ ls, ∀ ok, l ≠ .txDone ok)) →
    t.txstate = s.txstate ∧ t.txidx = s.txidx ∧ t.txshadow = s.txshadow ∧ t.brk = s.brk ∧ t.tmr = s.tmr ∧
      ((∀ l ∈ ls, ∀ w payload ok, l ≠ .cmd w payload ok) → t.txslot = s.txslot) ∧
      (s.mode = .transmit → t.rxslot = s.rxslot)

/-- R120: while Stopped, events and the labels of the transmitter have no effect, and every buffer command works. -/
def Obligations.StoppedIgnoresTheLink : Prop :=
  ∀ (p : Params) (s : State), Inv p s → s.mode = .stopped →
    (∀ l : Label, (∀ w payload ok, l ≠ .cmd w payload ok) → l ≠ .reset → deliver p l s = .next s) ∧
    (∀ i : Instr, i.wellFormed = true → ∃ t, exec i s = .next t)

/-! ## Receiver -/

/-- R88: while the mode is not Receive every event is dropped: no state change, no output. -/
def Obligations.EventsDroppedOutsideReceive : Prop :=
  ∀ (p : Params) (e : EvtWord) (b : List Byte) (s : State), s.mode ≠ .receive → deliver p (.evt e b) s = .next s

/-- R89, EV_BREAK: encoding, and its effect from every decoder state. -/
def Obligations.BreakRearmsOrEndsFrame : Prop :=
  encode .evBreak = .evt 0x2000 [] ∧
  (∀ s : State, s.mode = .receive →
    (s.dstate = .receiving → exec .evBreak s = .next { s with dstate := .frameDone }) ∧
    (s.dstate ≠ .receiving → exec .evBreak s = .next { s with
      cursor := 0, dstate := .breakDetected, trace := s.trace ++ [.rxFlush] })) ∧
  (∀ s : State, s.mode ≠ .receive → exec .evBreak s = .next s)

/-- R90 with R91, EV_DATA: encoding, and its effect from every decoder state: the start code, the payload written from
the cursor up to slot 512 and no further, everything else discarded. -/
def Obligations.DataFillsTheReceiveBuffer : Prop :=
  (∀ (n : Field) (b : List Byte), encode (.evData n b) = .evt (BitVec.ofNat 16 n.toNat) b) ∧
  (∀ (n : Field) (b : List Byte) (s : State), (Instr.evData n b).wellFormed = true → s.mode = .receive →
    (s.dstate = .idle ∨ s.dstate = .frameDone ∨ s.dstate = .linkError → exec (.evData n b) s = .next s) ∧
    (s.dstate = .breakDetected → b.head? ≠ some 0x00 →
      exec (.evData n b) s = .next { s with dstate := .frameDone }) ∧
    (s.dstate = .breakDetected → b.head? = some 0x00 → s.rxslot.wf = true → ∃ t, exec (.evData n b) s = .next t ∧
      t = { s with rxslot := t.rxslot, cursor := t.cursor, dstate := t.dstate } ∧ t.rxslot.wf = true ∧
      t.cursor.toNat = min (n.toNat - 1) 512 ∧ t.dstate = (if t.cursor = 512 then .frameDone else .receiving) ∧
      ∀ j, t.rxslot.read j = if j < min (n.toNat - 1) 512 then b.getD (j + 1) 0 else s.rxslot.read j) ∧
    (s.dstate = .receiving → s.cursor.toNat ≤ 511 → s.rxslot.wf = true → ∃ t, exec (.evData n b) s = .next t ∧
      t = { s with rxslot := t.rxslot, cursor := t.cursor, dstate := t.dstate } ∧ t.rxslot.wf = true ∧
      t.cursor.toNat = min (s.cursor.toNat + n.toNat) 512 ∧
      t.dstate = (if t.cursor = 512 then .frameDone else .receiving) ∧
      ∀ j, t.rxslot.read j =
        if s.cursor.toNat ≤ j ∧ j < t.cursor.toNat then b.getD (j - s.cursor.toNat) 0 else s.rxslot.read j)) ∧
  (∀ (n : Field) (b : List Byte) (s : State), s.mode ≠ .receive → exec (.evData n b) s = .next s)

/-- R92 to R96: the four condition errors: encodings, the flush, LinkError from every state but Idle, nothing else. -/
def Obligations.ConditionErrorsAreLinkFaults : Prop :=
  encode .evFerr = .evt 0x4000 [] ∧ encode .evPerr = .evt 0x6000 [] ∧
  encode .evOvf = .evt 0x8000 [] ∧ encode .evBfull = .evt 0xA000 [] ∧
  ∀ (i : Instr) (s : State), i = .evFerr ∨ i = .evPerr ∨ i = .evOvf ∨ i = .evBfull →
    (s.mode = .receive → s.dstate = .idle → exec i s = .next { s with trace := s.trace ++ [.rxFlush] }) ∧
    (s.mode = .receive → s.dstate ≠ .idle → exec i s = .next { s with
      dstate := .linkError, trace := s.trace ++ [.rxFlush] }) ∧
    (s.mode ≠ .receive → exec i s = .next s)

/-- R100: no zero-fill and no rollback. Apart from Reset, which clears the buffer, a slot of the receive buffer
changes only to the payload byte a Data event writes to it: in Receiving at or after the place the cursor had, in
BreakDetected only behind the standard start code 0x00. -/
def Obligations.NoZeroFillNoRollback : Prop :=
  (∀ (p : Params) (l : Label) (s t : State), l ≠ .reset → s.rxslot.wf = true → deliver p l s = .next t →
    ∀ j, t.rxslot.read j ≠ s.rxslot.read j →
      s.mode = .receive ∧ ∃ n b, (∃ e bytes, l = .evt e bytes ∧ decode (.evt e bytes) = .ok (.evData n b)) ∧
        ((s.dstate = .receiving ∧ s.cursor.toNat ≤ j ∧ b[j - s.cursor.toNat]? = some (t.rxslot.read j)) ∨
          (s.dstate = .breakDetected ∧ b.head? = some 0x00 ∧ b[j + 1]? = some (t.rxslot.read j))) ∧ j < 512) ∧
  (∀ (p : Params) (s : State), ∃ t, deliver p .reset s = .next t ∧ ∀ j, t.rxslot.read j = 0x00)

/-- The round trip of the document, for any split of the stream into Data events and any surplus bytes: after a break,
a standard start code and 512 slots the buffer is exactly those slots and the decoder is in FrameDone. -/
def Obligations.ReceivedFrameReadsBack : Prop :=
  ∀ (p : Params) (s : State) (c surplus : List Byte) (chunks : List (List Byte)),
    s.mode = .receive → s.dstate ≠ .receiving → s.rxslot.wf = true → c.length = 512 →
    chunks.flatten = 0x00 :: (c ++ surplus) → (∀ b ∈ chunks, 1 ≤ b.length ∧ b.length ≤ 1023) →
    ∃ t, runLabels p
        (labelOf .evBreak true :: chunks.map fun b => labelOf (.evData (BitVec.ofNat 10 b.length) b) true) s = .next t ∧
      t = { s with
        rxslot := t.rxslot, cursor := 512, dstate := .frameDone, trace := s.trace ++ [.rxFlush] } ∧
      t.rxslot.readRun 0 512 = c

/-- R131 (an inference the spec marks as its own): a break in Receiving ends the short frame and costs the next one:
every Data event until the break after it is discarded. -/
def Obligations.ShortFrameCostsTheNext : Prop :=
  ∀ (p : Params) (s : State) (chunks : List (List Byte)), s.mode = .receive → s.dstate = .receiving →
    (∀ b ∈ chunks, 1 ≤ b.length ∧ b.length ≤ 1023) →
    runLabels p
        (labelOf .evBreak true :: chunks.map fun b => labelOf (.evData (BitVec.ofNat 10 b.length) b) true) s =
      .next { s with dstate := .frameDone } ∧
    runLabels p
        (labelOf .evBreak true :: (chunks.map fun b => labelOf (.evData (BitVec.ofNat 10 b.length) b) true) ++
          [labelOf .evBreak true]) s =
      .next { s with cursor := 0, dstate := .breakDetected, trace := s.trace ++ [.rxFlush] }

/-- R138: START and STOP lose the position, not the data: whatever the driver answers, the buffers and the snapshot
are kept and every position is initial. -/
def Obligations.ModeChangeKeepsTheData : Prop :=
  ∀ (i : Instr) (s : State), (∃ m, i = .start m) ∨ i = .stop → ∃ t, exec i s = .next t ∧
    t.txslot = s.txslot ∧ t.rxslot = s.rxslot ∧ t.txshadow = s.txshadow ∧
    t.dstate = .idle ∧ t.cursor = 0 ∧ t.txidx = 0 ∧ t.tmr = 0 ∧ t.brk = false ∧
    (t.txstate = .off ∨ t.txstate = .waitIdle) ∧ (t.dir = true ↔ t.mode = .transmit)
end

