-- ==== Sys2Proof/Laws/Config.lean ====
section
/-! SUPPORT. The parameters of the machine are legal whatever the draws, and every legal instantiation is reached by some draws. -/

namespace Sys2Proof

theorem Params.legal_iff (p : Params) :
    p.legal = true ↔
      14 ≤ p.tmrW ∧ 88 ≤ p.tBreak ∧ p.tBreak < 2 ^ p.tmrW ∧ 12 ≤ p.tMab ∧ p.tMab < 2 ^ p.tmrW ∧
        p.tGap < 2 ^ p.tmrW := by
  simp [Params.legal, and_assoc]

theorem two_pow_ge (w : Nat) : 16384 ≤ 2 ^ (14 + w) :=
  Nat.pow_le_pow_right (n := 2) (i := 14) (by decide) (by omega)

theorem Params.ofDraws_legal (w br mab gap : Nat) (sc : Byte) : (Params.ofDraws w br mab gap sc).legal = true := by
  have h := two_pow_ge w
  have hb := Nat.mod_lt br (show 0 < 2 ^ (14 + w) - 88 by omega)
  have hm := Nat.mod_lt mab (show 0 < 2 ^ (14 + w) - 12 by omega)
  have hg := Nat.mod_lt gap (show 0 < 2 ^ (14 + w) by omega)
  rw [Params.legal_iff]
  simp only [Params.ofDraws]
  omega

/-- The machine's own parameters are within the bounds of R5. -/
theorem Config.params_legal : Config.params.legal = true := Params.ofDraws_legal ..

/-- No legal instantiation is left out by the form of the draws. -/
theorem Params.ofDraws_covers (p : Params) (h : p.legal = true) :
    ∃ w br mab gap, p = Params.ofDraws w br mab gap p.startCode := by
  rw [Params.legal_iff] at h
  obtain ⟨hw, hb, hb', hm, hm', hg⟩ := h
  refine ⟨p.tmrW - 14, p.tBreak - 88, p.tMab - 12, p.tGap, ?_⟩
  have e : 14 + (p.tmrW - 14) = p.tmrW := by omega
  cases p
  simp only [Params.ofDraws, Params.mk.injEq] at *
  refine ⟨by omega, ?_, ?_, ?_, trivial⟩ <;> rw [e, Nat.mod_eq_of_lt (by omega)] <;> omega

end Sys2Proof
end

