-- ==== Sys2Proof/Laws/Decode.lean ====
section
/-! SUPPORT. Packing and extracting the fields of command words and descriptors, and which row of a table a packed word selects (R52, R54, R58, R59). -/

namespace Sys2Proof

/-- The number of an appended word (R52: fields never overlap). -/
theorem toNat_append_add {m n : Nat} (x : BitVec m) (y : BitVec n) :
    (x ++ y).toNat = x.toNat * 2 ^ n + y.toNat := by
  rw [BitVec.toNat_append, ← Nat.shiftLeft_add_eq_or_of_lt y.isLt, Nat.shiftLeft_eq]

/-- R52: `W = op * 2^28 + val * 2^20 + b * 2^10 + a`. -/
theorem toNat_packCmd (op : BitVec 4) (val : Byte) (b a : Field) :
    (packCmd op val b a).toNat = op.toNat * 2 ^ 28 + val.toNat * 2 ^ 20 + b.toNat * 2 ^ 10 + a.toNat := by
  simp only [packCmd, toNat_append_add]
  omega

theorem toNat_packEvt (t r : BitVec 3) (n : Field) :
    (packEvt t r n).toNat = t.toNat * 2 ^ 13 + r.toNat * 2 ^ 10 + n.toNat := by
  simp only [packEvt, toNat_append_add]
  omega

theorem toNat_wordOp (w : CmdWord) : (wordOp w).toNat = w.toNat / 2 ^ 28 := by
  have := w.isLt
  simp only [wordOp, BitVec.extractLsb'_toNat, Nat.shiftRight_eq_div_pow]
  omega

theorem toNat_wordVal (w : CmdWord) : (wordVal w).toNat = w.toNat / 2 ^ 20 % 2 ^ 8 := by
  simp only [wordVal, BitVec.extractLsb'_toNat, Nat.shiftRight_eq_div_pow]

theorem toNat_wordB (w : CmdWord) : (wordB w).toNat = w.toNat / 2 ^ 10 % 2 ^ 10 := by
  simp only [wordB, BitVec.extractLsb'_toNat, Nat.shiftRight_eq_div_pow]

theorem toNat_wordA (w : CmdWord) : (wordA w).toNat = w.toNat % 2 ^ 10 := by
  simp only [wordA, BitVec.extractLsb'_toNat, Nat.shiftRight_zero]

theorem toNat_evtType (e : EvtWord) : (evtType e).toNat = e.toNat / 2 ^ 13 := by
  have := e.isLt
  simp only [evtType, BitVec.extractLsb'_toNat, Nat.shiftRight_eq_div_pow]
  omega

theorem toNat_evtReserved (e : EvtWord) : (evtReserved e).toNat = e.toNat / 2 ^ 10 % 2 ^ 3 := by
  simp only [evtReserved, BitVec.extractLsb'_toNat, Nat.shiftRight_eq_div_pow]

theorem toNat_evtLen (e : EvtWord) : (evtLen e).toNat = e.toNat % 2 ^ 10 := by
  simp only [evtLen, BitVec.extractLsb'_toNat, Nat.shiftRight_zero]

@[simp] theorem wordOp_packCmd (op : BitVec 4) (val : Byte) (b a : Field) : wordOp (packCmd op val b a) = op := by
  apply BitVec.eq_of_toNat_eq
  rw [toNat_wordOp, toNat_packCmd]
  have := op.isLt; have := val.isLt; have := b.isLt; have := a.isLt
  omega

@[simp] theorem wordVal_packCmd (op : BitVec 4) (val : Byte) (b a : Field) : wordVal (packCmd op val b a) = val := by
  apply BitVec.eq_of_toNat_eq
  rw [toNat_wordVal, toNat_packCmd]
  have := op.isLt; have := val.isLt; have := b.isLt; have := a.isLt
  omega

@[simp] theorem wordB_packCmd (op : BitVec 4) (val : Byte) (b a : Field) : wordB (packCmd op val b a) = b := by
  apply BitVec.eq_of_toNat_eq
  rw [toNat_wordB, toNat_packCmd]
  have := op.isLt; have := val.isLt; have := b.isLt; have := a.isLt
  omega

@[simp] theorem wordA_packCmd (op : BitVec 4) (val : Byte) (b a : Field) : wordA (packCmd op val b a) = a := by
  apply BitVec.eq_of_toNat_eq
  rw [toNat_wordA, toNat_packCmd]
  have := op.isLt; have := val.isLt; have := b.isLt; have := a.isLt
  omega

/-- A word is its four fields. -/
theorem packCmd_fields (w : CmdWord) : packCmd (wordOp w) (wordVal w) (wordB w) (wordA w) = w := by
  apply BitVec.eq_of_toNat_eq
  rw [toNat_packCmd, toNat_wordOp, toNat_wordVal, toNat_wordB, toNat_wordA]
  omega

@[simp] theorem evtType_packEvt (t r : BitVec 3) (n : Field) : evtType (packEvt t r n) = t := by
  apply BitVec.eq_of_toNat_eq
  rw [toNat_evtType, toNat_packEvt]
  have := t.isLt; have := r.isLt; have := n.isLt
  omega

@[simp] theorem evtReserved_packEvt (t r : BitVec 3) (n : Field) : evtReserved (packEvt t r n) = r := by
  apply BitVec.eq_of_toNat_eq
  rw [toNat_evtReserved, toNat_packEvt]
  have := t.isLt; have := r.isLt; have := n.isLt
  omega

@[simp] theorem evtLen_packEvt (t r : BitVec 3) (n : Field) : evtLen (packEvt t r n) = n := by
  apply BitVec.eq_of_toNat_eq
  rw [toNat_evtLen, toNat_packEvt]
  have := t.isLt; have := r.isLt; have := n.isLt
  omega

/-- A descriptor is its three fields. -/
theorem packEvt_fields (e : EvtWord) : packEvt (evtType e) (evtReserved e) (evtLen e) = e := by
  apply BitVec.eq_of_toNat_eq
  rw [toNat_packEvt, toNat_evtType, toNat_evtReserved, toNat_evtLen]
  omega

/-! ## Masking field by field -/

theorem and_append {m n : Nat} (x x' : BitVec m) (y y' : BitVec n) :
    (x ++ y) &&& (x' ++ y') = (x &&& x') ++ (y &&& y') := by
  ext i
  simp only [BitVec.getElem_and, BitVec.getElem_append]
  split <;> rfl

theorem append_inj {m n : Nat} {x x' : BitVec m} {y y' : BitVec n} :
    x ++ y = x' ++ y' ↔ x = x' ∧ y = y' := by
  refine ⟨fun h => ?_, fun ⟨h, h'⟩ => by rw [h, h']⟩
  have e := congrArg BitVec.toNat h
  rw [toNat_append_add, toNat_append_add] at e
  have hy := y.isLt
  have hy' := y'.isLt
  have e1 := congrArg (· / 2 ^ n) e
  have e2 := congrArg (· % 2 ^ n) e
  simp only [Nat.mul_comm _ (2 ^ n), Nat.mul_add_div (Nat.two_pow_pos n), Nat.div_eq_of_lt hy,
    Nat.div_eq_of_lt hy', Nat.mul_add_mod, Nat.mod_eq_of_lt hy, Nat.mod_eq_of_lt hy', Nat.add_zero] at e1 e2
  exact ⟨BitVec.eq_of_toNat_eq e1, BitVec.eq_of_toNat_eq e2⟩

theorem packCmd_and (op op' : BitVec 4) (v v' : Byte) (b b' a a' : Field) :
    packCmd op v b a &&& packCmd op' v' b' a' = packCmd (op &&& op') (v &&& v') (b &&& b') (a &&& a') :=
  (and_append (op ++ v ++ b) (op' ++ v' ++ b') a a').trans (by rw [and_append, and_append]; rfl)

theorem packCmd_inj {op op' : BitVec 4} {v v' : Byte} {b b' a a' : Field} :
    packCmd op v b a = packCmd op' v' b' a' ↔ op = op' ∧ v = v' ∧ b = b' ∧ a = a' :=
  (append_inj (x := op ++ v ++ b) (x' := op' ++ v' ++ b')).trans (by rw [append_inj, append_inj]; tauto)

theorem packEvt_and (t t' r r' : BitVec 3) (n n' : Field) :
    packEvt t r n &&& packEvt t' r' n' = packEvt (t &&& t') (r &&& r') (n &&& n') :=
  (and_append (t ++ r) (t' ++ r') n n').trans (by rw [and_append]; rfl)

theorem packEvt_inj {t t' r r' : BitVec 3} {n n' : Field} :
    packEvt t r n = packEvt t' r' n' ↔ t = t' ∧ r = r' ∧ n = n' :=
  (append_inj (x := t ++ r) (x' := t' ++ r')).trans (by rw [append_inj]; tauto)

/-- The code of a command (R54). -/
def CmdOp.opcode : CmdOp → BitVec 4
  | .start => 0x1
  | .stop => 0x2
  | .setch => 0x3
  | .setuni => 0x4
  | .write => 0x5
  | .getuni => 0x6
  | .getch => 0x7
  | .getrng => 0x8
  | .flush => 0x9
  | .getstat => 0xA

/-- The unused-field condition of a command, field by field (R54). -/
def CmdOp.fieldsOk (c : CmdOp) (v : Byte) (b a : Field) : Prop :=
  match c with
  | .start => v = 0 ∧ b = 0 ∧ (a = 0 ∨ a = 1)
  | .setch => b = 0
  | .write => v = 0
  | .getrng => v = 0
  | .getch => v = 0 ∧ b = 0
  | .stop => v = 0 ∧ b = 0 ∧ a = 0
  | .setuni => v = 0 ∧ b = 0 ∧ a = 0
  | .getuni => v = 0 ∧ b = 0 ∧ a = 0
  | .flush => v = 0 ∧ b = 0 ∧ a = 0
  | .getstat => v = 0 ∧ b = 0 ∧ a = 0

theorem field_mode_mask (a : Field) : a &&& 0x3FE = 0 ↔ a = 0 ∨ a = 1 := by
  revert a
  decide

/-- The match and mask table says, field by field, what the patterns of R54 show. -/
theorem CmdOp.selects_packCmd (c : CmdOp) (op : BitVec 4) (v : Byte) (b a : Field) :
    c.selects (packCmd op v b a) = true ↔ op = c.opcode ∧ c.fieldsOk v b a := by
  have hop : op &&& 0xF = op := by revert op; decide
  have hv : v &&& 0xFF = v := by revert v; decide
  have hf : ∀ x : Field, x &&& 0x3FF = x := by decide
  cases c
  case start =>
    rw [CmdOp.selects, beq_iff_eq, show CmdOp.mask .start = packCmd 0xF 0xFF 0x3FF 0x3FE from rfl,
      show CmdOp.pattern .start = packCmd 0x1 0 0 0 from rfl, packCmd_and, packCmd_inj, hop, hv, hf, field_mode_mask]
    rfl
  case stop =>
    rw [CmdOp.selects, beq_iff_eq, show CmdOp.mask .stop = packCmd 0xF 0xFF 0x3FF 0x3FF from rfl,
      show CmdOp.pattern .stop = packCmd 0x2 0 0 0 from rfl, packCmd_and, packCmd_inj, hop, hv, hf, hf]
    rfl
  case setch =>
    rw [CmdOp.selects, beq_iff_eq, show CmdOp.mask .setch = packCmd 0xF 0 0x3FF 0 from rfl,
      show CmdOp.pattern .setch = packCmd 0x3 0 0 0 from rfl, packCmd_and, packCmd_inj, hop, hf]
    simp [CmdOp.fieldsOk, CmdOp.opcode]
  case setuni =>
    rw [CmdOp.selects, beq_iff_eq, show CmdOp.mask .setuni = packCmd 0xF 0xFF 0x3FF 0x3FF from rfl,
      show CmdOp.pattern .setuni = packCmd 0x4 0 0 0 from rfl, packCmd_and, packCmd_inj, hop, hv, hf, hf]
    rfl
  case write =>
    rw [CmdOp.selects, beq_iff_eq, show CmdOp.mask .write = packCmd 0xF 0xFF 0 0 from rfl,
      show CmdOp.pattern .write = packCmd 0x5 0 0 0 from rfl, packCmd_and, packCmd_inj, hop, hv]
    simp [CmdOp.fieldsOk, CmdOp.opcode]
  case getuni =>
    rw [CmdOp.selects, beq_iff_eq, show CmdOp.mask .getuni = packCmd 0xF 0xFF 0x3FF 0x3FF from rfl,
      show CmdOp.pattern .getuni = packCmd 0x6 0 0 0 from rfl, packCmd_and, packCmd_inj, hop, hv, hf, hf]
    rfl
  case getch =>
    rw [CmdOp.selects, beq_iff_eq, show CmdOp.mask .getch = packCmd 0xF 0xFF 0x3FF 0 from rfl,
      show CmdOp.pattern .getch = packCmd 0x7 0 0 0 from rfl, packCmd_and, packCmd_inj, hop, hv, hf]
    simp [CmdOp.fieldsOk, CmdOp.opcode]
  case getrng =>
    rw [CmdOp.selects, beq_iff_eq, show CmdOp.mask .getrng = packCmd 0xF 0xFF 0 0 from rfl,
      show CmdOp.pattern .getrng = packCmd 0x8 0 0 0 from rfl, packCmd_and, packCmd_inj, hop, hv]
    simp [CmdOp.fieldsOk, CmdOp.opcode]
  case flush =>
    rw [CmdOp.selects, beq_iff_eq, show CmdOp.mask .flush = packCmd 0xF 0xFF 0x3FF 0x3FF from rfl,
      show CmdOp.pattern .flush = packCmd 0x9 0 0 0 from rfl, packCmd_and, packCmd_inj, hop, hv, hf, hf]
    rfl
  case getstat =>
    rw [CmdOp.selects, beq_iff_eq, show CmdOp.mask .getstat = packCmd 0xF 0xFF 0x3FF 0x3FF from rfl,
      show CmdOp.pattern .getstat = packCmd 0xA 0 0 0 from rfl, packCmd_and, packCmd_inj, hop, hv, hf, hf]
    rfl

theorem CmdOp.opcode_injective {c d : CmdOp} (h : c.opcode = d.opcode) : c = d := by
  revert h
  cases c <;> cases d <;> decide

/-- The rows of R54 are pairwise disjoint. -/
theorem CmdOp.selects_unique {c d : CmdOp} {w : CmdWord} (hc : c.selects w = true) (hd : d.selects w = true) :
    c = d := by
  rw [← packCmd_fields w] at hc hd
  rw [CmdOp.selects_packCmd] at hc hd
  exact CmdOp.opcode_injective (hc.1.symm.trans hd.1)

theorem cmdOf_eq_some {w : CmdWord} {c : CmdOp} : cmdOf w = some c ↔ c.selects w = true := by
  constructor
  · intro h
    exact List.find?_some (p := fun d => CmdOp.selects d w) h
  · intro h
    cases e : cmdOf w with
    | none =>
      have := List.find?_eq_none.1 e c (by cases c <;> decide)
      exact absurd h this
    | some d => exact congrArg some (CmdOp.selects_unique (List.find?_some (p := fun d => CmdOp.selects d w) e) h)

/-- The row of a packed word. -/
theorem cmdOf_packCmd (c : CmdOp) {v : Byte} {b a : Field} (h : c.fieldsOk v b a) :
    cmdOf (packCmd c.opcode v b a) = some c :=
  cmdOf_eq_some.2 ((CmdOp.selects_packCmd ..).2 ⟨rfl, h⟩)

/-- The type of an event (R59). -/
def EvtOp.type : EvtOp → BitVec 3
  | .data => 0
  | .brk => 1
  | .ferr => 2
  | .perr => 3
  | .ovf => 4
  | .bfull => 5

/-- The length condition of an event (R59). -/
def EvtOp.lenOk (c : EvtOp) (n : Field) : Prop :=
  match c with
  | .data => 1 ≤ n.toNat
  | .brk => n = 0
  | .ferr => n = 0
  | .perr => n = 0
  | .ovf => n = 0
  | .bfull => n = 0

theorem EvtOp.selects_packEvt (c : EvtOp) (t r : BitVec 3) (n : Field) :
    c.selects (packEvt t r n) = true ↔ t = c.type ∧ r = 0 ∧ c.lenOk n := by
  have ht : ∀ x : BitVec 3, x &&& 7 = x := by decide
  have hf : ∀ x : Field, x &&& 0x3FF = x := by decide
  have hcond : ∀ d : EvtOp, d ≠ .data → d.mask = packEvt 7 7 0x3FF := by
    intro d hd
    cases d <;> first | rfl | exact absurd rfl hd
  cases c
  case data =>
    rw [EvtOp.selects, Bool.and_eq_true, beq_iff_eq, show EvtOp.mask .data = packEvt 7 7 0 from rfl,
      show EvtOp.pattern .data = packEvt 0 0 0 from rfl, packEvt_and, packEvt_inj, ht, ht]
    simp [EvtOp.type, EvtOp.lenOk, and_assoc]
  all_goals
    rw [EvtOp.selects, Bool.and_eq_true, beq_iff_eq, hcond _ (by decide), packEvt_and, ht, ht, hf]
  case brk =>
    rw [show EvtOp.pattern .brk = packEvt 1 0 0 from rfl, packEvt_inj]
    simp [EvtOp.type, EvtOp.lenOk]
  case ferr =>
    rw [show EvtOp.pattern .ferr = packEvt 2 0 0 from rfl, packEvt_inj]
    simp [EvtOp.type, EvtOp.lenOk]
  case perr =>
    rw [show EvtOp.pattern .perr = packEvt 3 0 0 from rfl, packEvt_inj]
    simp [EvtOp.type, EvtOp.lenOk]
  case ovf =>
    rw [show EvtOp.pattern .ovf = packEvt 4 0 0 from rfl, packEvt_inj]
    simp [EvtOp.type, EvtOp.lenOk]
  case bfull =>
    rw [show EvtOp.pattern .bfull = packEvt 5 0 0 from rfl, packEvt_inj]
    simp [EvtOp.type, EvtOp.lenOk]

theorem EvtOp.type_injective {c d : EvtOp} (h : c.type = d.type) : c = d := by
  revert h
  cases c <;> cases d <;> decide

theorem EvtOp.selects_unique {c d : EvtOp} {e : EvtWord} (hc : c.selects e = true) (hd : d.selects e = true) :
    c = d := by
  rw [← packEvt_fields e] at hc hd
  rw [EvtOp.selects_packEvt] at hc hd
  exact EvtOp.type_injective (hc.1.symm.trans hd.1)

theorem evtOf_eq_some {e : EvtWord} {c : EvtOp} : evtOf e = some c ↔ c.selects e = true := by
  constructor
  · intro h
    exact List.find?_some (p := fun d => EvtOp.selects d e) h
  · intro h
    cases x : evtOf e with
    | none =>
      have := List.find?_eq_none.1 x c (by cases c <;> decide)
      exact absurd h this
    | some d => exact congrArg some (EvtOp.selects_unique (List.find?_some (p := fun d => EvtOp.selects d e) x) h)

theorem evtOf_packEvt (c : EvtOp) {n : Field} (h : c.lenOk n) : evtOf (packEvt c.type 0 n) = some c :=
  evtOf_eq_some.2 ((EvtOp.selects_packEvt ..).2 ⟨rfl, rfl, h⟩)

end Sys2Proof
end

