-- ==== Sys2Proof/Laws/Operands.lean ====
section
/-! SUPPORT. The range checks in unbounded numbers: no sum wraps (R66, R70). -/

namespace Sys2Proof.Machine

theorem toNat_zext11 (x : Field) : (zext11 x).toNat = x.toNat := by
  have := x.isLt
  simp [zext11]
  omega

theorem addressOk_iff (a : Field) : addressOk a = true ↔ 1 ≤ a.toNat ∧ a.toNat ≤ 512 := by
  simp [addressOk, BitVec.le_def]

theorem offsetOk_iff (o l : Field) : offsetOk o l = true ↔ o.toNat + l.toNat ≤ 512 := by
  have ho := o.isLt
  have hl := l.isLt
  simp only [offsetOk, decide_eq_true_eq, BitVec.le_def, BitVec.toNat_add, toNat_zext11]
  rw [Nat.mod_eq_of_lt (by omega)]
  rfl

theorem rangeOk_iff (s c : Field) :
    rangeOk s c = true ↔ 1 ≤ s.toNat ∧ 1 ≤ c.toNat ∧ s.toNat + c.toNat - 1 ≤ 512 := by
  have hs := s.isLt
  have hc := c.isLt
  simp only [rangeOk, Bool.and_eq_true, decide_eq_true_eq, BitVec.le_def, BitVec.toNat_sub, BitVec.toNat_add,
    toNat_zext11, BitVec.toNat_ofNat]
  omega

end Sys2Proof.Machine
end

