-- ==== Sys2Proof/Laws/Memory.lean ====
section
/-! SUPPORT. The slot arrays: read after write, the canonical form kept by every operation, and equal arrays from equal reads. -/

namespace Sys2Proof.Machine

@[simp] theorem Memory.read_nil (i : Nat) : Memory.read [] i = 0#8 := rfl

theorem Memory.read_cons (c : Host.Cell) (m : Memory) (i : Nat) :
    Memory.read (c :: m) i = if c.1 = i then c.2 else Memory.read m i := rfl

@[simp] theorem Memory.wfFrom_nil (lo : Nat) : Memory.wfFrom lo [] = true := rfl

theorem Memory.wfFrom_cons {lo : Nat} {c : Host.Cell} {m : Memory} :
    Memory.wfFrom lo (c :: m) = true ↔
      lo ≤ c.1 ∧ c.1 < 512 ∧ c.2 ≠ 0#8 ∧ Memory.wfFrom (c.1 + 1) m = true := by
  simp only [Memory.wfFrom, Bool.and_eq_true, decide_eq_true_eq, and_assoc]
  rfl

theorem Memory.wfFrom_mono {lo lo' : Nat} {m : Memory} (h : lo ≤ lo') (hm : Memory.wfFrom lo' m = true) :
    Memory.wfFrom lo m = true := by
  cases m with
  | nil => rfl
  | cons c m =>
    rw [Memory.wfFrom_cons] at hm ⊢
    exact ⟨by omega, hm.2⟩

/-- A slot below every listed index reads the reset content. -/
theorem Memory.read_below {lo i : Nat} {m : Memory} (h : Memory.wfFrom lo m = true) (hi : i < lo) :
    m.read i = 0#8 := by
  induction m generalizing lo with
  | nil => rfl
  | cons c m ih =>
    rw [Memory.wfFrom_cons] at h
    rw [Memory.read_cons, if_neg (by omega)]
    exact ih h.2.2.2 (by omega)

/-- A write keeps the canonical form. -/
theorem Memory.wfFrom_write {lo i : Nat} {m : Memory} (v : Byte) (h : Memory.wfFrom lo m = true) (hl : lo ≤ i)
    (hi : i < 512) : Memory.wfFrom lo (m.write i v) = true := by
  induction m generalizing lo with
  | nil =>
    simp only [Memory.write]
    split
    · rfl
    · exact Memory.wfFrom_cons.2 ⟨hl, hi, ‹_›, rfl⟩
  | cons c m ih =>
    have hc := Memory.wfFrom_cons.1 h
    simp only [Memory.write]
    split
    · split
      · exact h
      · exact Memory.wfFrom_cons.2 ⟨hl, hi, ‹_›, Memory.wfFrom_cons.2 ⟨by omega, hc.2⟩⟩
    · split
      · split
        · exact Memory.wfFrom_mono (by omega) hc.2.2.2
        · exact Memory.wfFrom_cons.2 ⟨hl, hi, ‹_›, by subst i; exact hc.2.2.2⟩
      · exact Memory.wfFrom_cons.2 ⟨hc.1, hc.2.1, hc.2.2.1, ih hc.2.2.2 (by omega)⟩

theorem Memory.wf_write {m : Memory} {i : Nat} (v : Byte) (h : m.wf = true) (hi : i < 512) :
    (m.write i v).wf = true :=
  Memory.wfFrom_write v h (Nat.zero_le _) hi

/-- Read after write. -/
theorem Memory.read_write_from {lo : Nat} {m : Memory} (i : Nat) (v : Byte) (j : Nat)
    (h : Memory.wfFrom lo m = true) : (m.write i v).read j = if j = i then v else m.read j := by
  induction m generalizing lo with
  | nil =>
    simp only [Memory.write]
    split
    · subst v
      simp [Memory.unlisted]
    · simp [Memory.read_cons, eq_comm]
  | cons c m ih =>
    have hc := Memory.wfFrom_cons.1 h
    have hm : ∀ k, k ≤ c.1 → Memory.read m k = 0#8 := fun k hk => Memory.read_below hc.2.2.2 (by omega)
    simp only [Memory.write]
    split
    · rename_i hlt
      split
      · subst v
        by_cases hj : j = i
        · subst j
          rw [if_pos rfl, Memory.read_cons, if_neg (by omega), hm i (by omega)]
          rfl
        · rw [if_neg hj]
      · rw [Memory.read_cons]
        simp only [eq_comm]
    · split
      · rename_i hi
        split
        · subst v
          by_cases hj : j = i
          · subst j
            rw [if_pos rfl, hm i (by omega)]
            rfl
          · rw [if_neg hj, Memory.read_cons, if_neg (by omega)]
        · simp only [Memory.read_cons]
          by_cases hj : j = i
          · simp [hj]
          · rw [if_neg (by omega), if_neg hj, if_neg (by omega)]
      · rw [Memory.read_cons, Memory.read_cons, ih hc.2.2.2]
        by_cases hj : c.1 = j
        · rw [if_pos hj, if_neg (by omega), if_pos hj]
        · rw [if_neg hj, if_neg hj]

theorem Memory.read_write {m : Memory} (h : m.wf = true) (i : Nat) (v : Byte) (j : Nat) :
    (m.write i v).read j = if j = i then v else m.read j :=
  Memory.read_write_from i v j h

/-- A run of writes below slot 512 keeps the canonical form. -/
theorem Memory.wf_writeRun {m : Memory} (h : m.wf = true) {i : Nat} {bs : List Byte} (hb : i + bs.length ≤ 512) :
    (m.writeRun i bs).wf = true := by
  induction bs generalizing m i with
  | nil => exact h
  | cons b bs ih =>
    simp only [List.length_cons] at hb
    exact ih (Memory.wf_write b h (by omega)) (by omega)

/-- Reading any slot after a run of writes. -/
theorem Memory.read_writeRun {m : Memory} (h : m.wf = true) {i : Nat} {bs : List Byte} (hb : i + bs.length ≤ 512)
    (j : Nat) : (m.writeRun i bs).read j = if i ≤ j ∧ j < i + bs.length then bs.getD (j - i) 0#8 else m.read j := by
  induction bs generalizing m i with
  | nil => rw [if_neg (by simp only [List.length_nil]; omega)]; rfl
  | cons b bs ih =>
    simp only [List.length_cons] at hb ⊢
    rw [Memory.writeRun, ih (Memory.wf_write b h (by omega)) (by omega), Memory.read_write h]
    by_cases h1 : i + 1 ≤ j ∧ j < i + 1 + bs.length
    · rw [if_pos h1, if_pos (by omega), show j - i = (j - (i + 1)) + 1 by omega, List.getD_cons_succ]
    · rw [if_neg h1]
      by_cases h2 : j = i
      · subst j
        rw [if_pos rfl, if_pos (by omega), Nat.sub_self, List.getD_cons_zero]
      · rw [if_neg h2, if_neg (by omega)]

theorem Memory.writeRun_append (m : Memory) (i : Nat) (as bs : List Byte) :
    m.writeRun i (as ++ bs) = (m.writeRun i as).writeRun (i + as.length) bs := by
  induction as generalizing m i with
  | nil => rfl
  | cons a as ih =>
    simp only [List.cons_append, Memory.writeRun, List.length_cons, ih]
    rw [show i + 1 + as.length = i + (as.length + 1) by omega]

@[simp] theorem Memory.length_readRun (m : Memory) (i n : Nat) : (m.readRun i n).length = n := by
  induction n generalizing i with
  | zero => rfl
  | succ n ih => simp [Memory.readRun, ih]

theorem Memory.getElem?_readRun (m : Memory) (i n k : Nat) (h : k < n) :
    (m.readRun i n)[k]? = some (m.read (i + k)) := by
  induction n generalizing i k with
  | zero => omega
  | succ n ih =>
    cases k with
    | zero => simp [Memory.readRun]
    | succ k =>
      rw [Memory.readRun, List.getElem?_cons_succ, ih (i + 1) k (by omega)]
      congr 2
      omega

theorem Memory.readRun_succ (m : Memory) (i n : Nat) : m.readRun i (n + 1) = m.readRun i n ++ [m.read (i + n)] := by
  induction n generalizing i with
  | zero => rfl
  | succ n ih =>
    rw [Memory.readRun, ih (i + 1), Memory.readRun, List.cons_append]
    congr 4
    omega

/-- Two canonical arrays that read alike are the same data. -/
theorem Memory.ext_from {lo lo' : Nat} {m m' : Memory} (h : Memory.wfFrom lo m = true)
    (h' : Memory.wfFrom lo' m' = true) (e : ∀ i, m.read i = m'.read i) : m = m' := by
  induction m generalizing lo lo' m' with
  | nil =>
    cases m' with
    | nil => rfl
    | cons c m' =>
      have hc := Memory.wfFrom_cons.1 h'
      have := e c.1
      simp [Memory.read_cons] at this
      exact absurd this.symm hc.2.2.1
  | cons c m ih =>
    have hc := Memory.wfFrom_cons.1 h
    cases m' with
    | nil =>
      have := e c.1
      simp [Memory.read_cons] at this
      exact absurd this hc.2.2.1
    | cons d m' =>
      have hd := Memory.wfFrom_cons.1 h'
      have hcd : c.1 = d.1 := by
        have e1 := e c.1
        have e2 := e d.1
        rw [Memory.read_cons, if_pos rfl, Memory.read_cons] at e1
        rw [Memory.read_cons (c := d), if_pos rfl, Memory.read_cons] at e2
        by_contra hne
        rcases Nat.lt_or_gt_of_ne hne with hlt | hgt
        · rw [if_neg (by omega), Memory.read_below hd.2.2.2 (by omega)] at e1
          exact hc.2.2.1 e1
        · rw [if_neg (by omega), Memory.read_below hc.2.2.2 (by omega)] at e2
          exact hd.2.2.1 e2.symm
      have hv : c.2 = d.2 := by
        have e1 := e c.1
        rwa [Memory.read_cons, if_pos rfl, Memory.read_cons, if_pos hcd.symm] at e1
      have hm : m = m' := by
        refine ih hc.2.2.2 hd.2.2.2 fun i => ?_
        by_cases hi : c.1 = i
        · rw [Memory.read_below hc.2.2.2 (by omega), Memory.read_below hd.2.2.2 (by omega)]
        · have e1 := e i
          rwa [Memory.read_cons, if_neg hi, Memory.read_cons, if_neg (by omega)] at e1
      rw [hm, Prod.ext hcd hv]

theorem Memory.ext_read {m m' : Memory} (h : m.wf = true) (h' : m'.wf = true)
    (e : ∀ i, m.read i = m'.read i) : m = m' :=
  Memory.ext_from h h' e

end Sys2Proof.Machine
end

