-- ==== Sys2Proof/Laws/State.lean ====
section
/-! SUPPORT. For each named update of State: what it leaves in each field, and its whole effect as one equation. -/

namespace Sys2Proof.Machine

variable (s : State)

@[simp] theorem State.emit_txslot (o : Output) : (s.emit o).txslot = s.txslot := rfl
@[simp] theorem State.emit_rxslot (o : Output) : (s.emit o).rxslot = s.rxslot := rfl
@[simp] theorem State.emit_txshadow (o : Output) : (s.emit o).txshadow = s.txshadow := rfl
@[simp] theorem State.emit_mode (o : Output) : (s.emit o).mode = s.mode := rfl
@[simp] theorem State.emit_dstate (o : Output) : (s.emit o).dstate = s.dstate := rfl
@[simp] theorem State.emit_cursor (o : Output) : (s.emit o).cursor = s.cursor := rfl
@[simp] theorem State.emit_txstate (o : Output) : (s.emit o).txstate = s.txstate := rfl
@[simp] theorem State.emit_txidx (o : Output) : (s.emit o).txidx = s.txidx := rfl
@[simp] theorem State.emit_tmr (o : Output) : (s.emit o).tmr = s.tmr := rfl
@[simp] theorem State.emit_brk (o : Output) : (s.emit o).brk = s.brk := rfl
@[simp] theorem State.emit_dir (o : Output) : (s.emit o).dir = s.dir := rfl
@[simp] theorem State.emit_pending (o : Output) : (s.emit o).pending = s.pending := rfl
@[simp] theorem State.emit_drvOk (o : Output) : (s.emit o).drvOk = s.drvOk := rfl
@[simp] theorem State.emit_trace (o : Output) : (s.emit o).trace = s.trace ++ [o] := rfl

@[simp] theorem State.respond_txslot (st : Status) (d : List Byte) : (s.respond st d).txslot = s.txslot := rfl
@[simp] theorem State.respond_rxslot (st : Status) (d : List Byte) : (s.respond st d).rxslot = s.rxslot := rfl
@[simp] theorem State.respond_txshadow (st : Status) (d : List Byte) : (s.respond st d).txshadow = s.txshadow := rfl
@[simp] theorem State.respond_mode (st : Status) (d : List Byte) : (s.respond st d).mode = s.mode := rfl
@[simp] theorem State.respond_dstate (st : Status) (d : List Byte) : (s.respond st d).dstate = s.dstate := rfl
@[simp] theorem State.respond_cursor (st : Status) (d : List Byte) : (s.respond st d).cursor = s.cursor := rfl
@[simp] theorem State.respond_txstate (st : Status) (d : List Byte) : (s.respond st d).txstate = s.txstate := rfl
@[simp] theorem State.respond_txidx (st : Status) (d : List Byte) : (s.respond st d).txidx = s.txidx := rfl
@[simp] theorem State.respond_tmr (st : Status) (d : List Byte) : (s.respond st d).tmr = s.tmr := rfl
@[simp] theorem State.respond_brk (st : Status) (d : List Byte) : (s.respond st d).brk = s.brk := rfl
@[simp] theorem State.respond_dir (st : Status) (d : List Byte) : (s.respond st d).dir = s.dir := rfl
@[simp] theorem State.respond_pending (st : Status) (d : List Byte) : (s.respond st d).pending = s.pending := rfl
@[simp] theorem State.respond_drvOk (st : Status) (d : List Byte) : (s.respond st d).drvOk = s.drvOk := rfl
@[simp] theorem State.respond_trace (st : Status) (d : List Byte) : (s.respond st d).trace = s.trace ++ [.rsp st d] := rfl

@[simp] theorem State.setMode_txslot (m : Mode) (l : Bool) : (s.setMode m l).txslot = s.txslot := rfl
@[simp] theorem State.setMode_rxslot (m : Mode) (l : Bool) : (s.setMode m l).rxslot = s.rxslot := rfl
@[simp] theorem State.setMode_txshadow (m : Mode) (l : Bool) : (s.setMode m l).txshadow = s.txshadow := rfl
@[simp] theorem State.setMode_mode (m : Mode) (l : Bool) : (s.setMode m l).mode = m := rfl
@[simp] theorem State.setMode_dstate (m : Mode) (l : Bool) : (s.setMode m l).dstate = s.dstate := rfl
@[simp] theorem State.setMode_cursor (m : Mode) (l : Bool) : (s.setMode m l).cursor = s.cursor := rfl
@[simp] theorem State.setMode_txstate (m : Mode) (l : Bool) : (s.setMode m l).txstate = s.txstate := rfl
@[simp] theorem State.setMode_txidx (m : Mode) (l : Bool) : (s.setMode m l).txidx = s.txidx := rfl
@[simp] theorem State.setMode_tmr (m : Mode) (l : Bool) : (s.setMode m l).tmr = s.tmr := rfl
@[simp] theorem State.setMode_brk (m : Mode) (l : Bool) : (s.setMode m l).brk = s.brk := rfl
@[simp] theorem State.setMode_dir (m : Mode) (l : Bool) : (s.setMode m l).dir = l := rfl
@[simp] theorem State.setMode_pending (m : Mode) (l : Bool) : (s.setMode m l).pending = s.pending := rfl
@[simp] theorem State.setMode_drvOk (m : Mode) (l : Bool) : (s.setMode m l).drvOk = s.drvOk := rfl
@[simp] theorem State.setMode_trace (m : Mode) (l : Bool) : (s.setMode m l).trace = s.trace ++ [.dir l] := rfl

@[simp] theorem State.rearm_txslot : (s.rearm).txslot = s.txslot := rfl
@[simp] theorem State.rearm_rxslot : (s.rearm).rxslot = s.rxslot := rfl
@[simp] theorem State.rearm_txshadow : (s.rearm).txshadow = s.txshadow := rfl
@[simp] theorem State.rearm_mode : (s.rearm).mode = s.mode := rfl
@[simp] theorem State.rearm_dstate : (s.rearm).dstate = .breakDetected := rfl
@[simp] theorem State.rearm_cursor : (s.rearm).cursor = 0 := rfl
@[simp] theorem State.rearm_txstate : (s.rearm).txstate = s.txstate := rfl
@[simp] theorem State.rearm_txidx : (s.rearm).txidx = s.txidx := rfl
@[simp] theorem State.rearm_tmr : (s.rearm).tmr = s.tmr := rfl
@[simp] theorem State.rearm_brk : (s.rearm).brk = s.brk := rfl
@[simp] theorem State.rearm_dir : (s.rearm).dir = s.dir := rfl
@[simp] theorem State.rearm_pending : (s.rearm).pending = s.pending := rfl
@[simp] theorem State.rearm_drvOk : (s.rearm).drvOk = s.drvOk := rfl
@[simp] theorem State.rearm_trace : (s.rearm).trace = s.trace ++ [.rxFlush] := rfl

@[simp] theorem State.assertBreak_txslot (p : Params) : (s.assertBreak p).txslot = s.txslot := rfl
@[simp] theorem State.assertBreak_rxslot (p : Params) : (s.assertBreak p).rxslot = s.rxslot := rfl
@[simp] theorem State.assertBreak_txshadow (p : Params) : (s.assertBreak p).txshadow = s.txshadow := rfl
@[simp] theorem State.assertBreak_mode (p : Params) : (s.assertBreak p).mode = s.mode := rfl
@[simp] theorem State.assertBreak_dstate (p : Params) : (s.assertBreak p).dstate = s.dstate := rfl
@[simp] theorem State.assertBreak_cursor (p : Params) : (s.assertBreak p).cursor = s.cursor := rfl
@[simp] theorem State.assertBreak_txstate (p : Params) : (s.assertBreak p).txstate = .brk := rfl
@[simp] theorem State.assertBreak_txidx (p : Params) : (s.assertBreak p).txidx = s.txidx := rfl
@[simp] theorem State.assertBreak_tmr (p : Params) : (s.assertBreak p).tmr = p.tBreak := rfl
@[simp] theorem State.assertBreak_brk (p : Params) : (s.assertBreak p).brk = true := rfl
@[simp] theorem State.assertBreak_dir (p : Params) : (s.assertBreak p).dir = s.dir := rfl
@[simp] theorem State.assertBreak_pending (p : Params) : (s.assertBreak p).pending = s.pending := rfl
@[simp] theorem State.assertBreak_drvOk (p : Params) : (s.assertBreak p).drvOk = s.drvOk := rfl
@[simp] theorem State.assertBreak_trace (p : Params) : (s.assertBreak p).trace = s.trace ++ [.brkOn] := rfl

@[simp] theorem State.endBreak_txslot (p : Params) : (s.endBreak p).txslot = s.txslot := rfl
@[simp] theorem State.endBreak_rxslot (p : Params) : (s.endBreak p).rxslot = s.rxslot := rfl
@[simp] theorem State.endBreak_txshadow (p : Params) : (s.endBreak p).txshadow = s.txshadow := rfl
@[simp] theorem State.endBreak_mode (p : Params) : (s.endBreak p).mode = s.mode := rfl
@[simp] theorem State.endBreak_dstate (p : Params) : (s.endBreak p).dstate = s.dstate := rfl
@[simp] theorem State.endBreak_cursor (p : Params) : (s.endBreak p).cursor = s.cursor := rfl
@[simp] theorem State.endBreak_txstate (p : Params) : (s.endBreak p).txstate = .mab := rfl
@[simp] theorem State.endBreak_txidx (p : Params) : (s.endBreak p).txidx = s.txidx := rfl
@[simp] theorem State.endBreak_tmr (p : Params) : (s.endBreak p).tmr = p.tMab := rfl
@[simp] theorem State.endBreak_brk (p : Params) : (s.endBreak p).brk = false := rfl
@[simp] theorem State.endBreak_dir (p : Params) : (s.endBreak p).dir = s.dir := rfl
@[simp] theorem State.endBreak_pending (p : Params) : (s.endBreak p).pending = s.pending := rfl
@[simp] theorem State.endBreak_drvOk (p : Params) : (s.endBreak p).drvOk = s.drvOk := rfl
@[simp] theorem State.endBreak_trace (p : Params) : (s.endBreak p).trace = s.trace ++ [.brkOff] := rfl

@[simp] theorem State.takeSnapshot_txslot : (s.takeSnapshot).txslot = s.txslot := rfl
@[simp] theorem State.takeSnapshot_rxslot : (s.takeSnapshot).rxslot = s.rxslot := rfl
@[simp] theorem State.takeSnapshot_txshadow : (s.takeSnapshot).txshadow = s.txslot := rfl
@[simp] theorem State.takeSnapshot_mode : (s.takeSnapshot).mode = s.mode := rfl
@[simp] theorem State.takeSnapshot_dstate : (s.takeSnapshot).dstate = s.dstate := rfl
@[simp] theorem State.takeSnapshot_cursor : (s.takeSnapshot).cursor = s.cursor := rfl
@[simp] theorem State.takeSnapshot_txstate : (s.takeSnapshot).txstate = .sc := rfl
@[simp] theorem State.takeSnapshot_txidx : (s.takeSnapshot).txidx = 0 := rfl
@[simp] theorem State.takeSnapshot_tmr : (s.takeSnapshot).tmr = s.tmr := rfl
@[simp] theorem State.takeSnapshot_brk : (s.takeSnapshot).brk = s.brk := rfl
@[simp] theorem State.takeSnapshot_dir : (s.takeSnapshot).dir = s.dir := rfl
@[simp] theorem State.takeSnapshot_pending : (s.takeSnapshot).pending = s.pending := rfl
@[simp] theorem State.takeSnapshot_drvOk : (s.takeSnapshot).drvOk = s.drvOk := rfl
@[simp] theorem State.takeSnapshot_trace : (s.takeSnapshot).trace = s.trace := rfl

@[simp] theorem State.handStartCode_txslot (p : Params) : (s.handStartCode p).txslot = s.txslot := rfl
@[simp] theorem State.handStartCode_rxslot (p : Params) : (s.handStartCode p).rxslot = s.rxslot := rfl
@[simp] theorem State.handStartCode_txshadow (p : Params) : (s.handStartCode p).txshadow = s.txshadow := rfl
@[simp] theorem State.handStartCode_mode (p : Params) : (s.handStartCode p).mode = s.mode := rfl
@[simp] theorem State.handStartCode_dstate (p : Params) : (s.handStartCode p).dstate = s.dstate := rfl
@[simp] theorem State.handStartCode_cursor (p : Params) : (s.handStartCode p).cursor = s.cursor := rfl
@[simp] theorem State.handStartCode_txstate (p : Params) : (s.handStartCode p).txstate = .data := rfl
@[simp] theorem State.handStartCode_txidx (p : Params) : (s.handStartCode p).txidx = s.txidx := rfl
@[simp] theorem State.handStartCode_tmr (p : Params) : (s.handStartCode p).tmr = s.tmr := rfl
@[simp] theorem State.handStartCode_brk (p : Params) : (s.handStartCode p).brk = s.brk := rfl
@[simp] theorem State.handStartCode_dir (p : Params) : (s.handStartCode p).dir = s.dir := rfl
@[simp] theorem State.handStartCode_pending (p : Params) : (s.handStartCode p).pending = s.pending := rfl
@[simp] theorem State.handStartCode_drvOk (p : Params) : (s.handStartCode p).drvOk = s.drvOk := rfl
@[simp] theorem State.handStartCode_trace (p : Params) : (s.handStartCode p).trace = s.trace ++ [.txByte p.startCode] := rfl

@[simp] theorem State.startGap_txslot (p : Params) : (s.startGap p).txslot = s.txslot := rfl
@[simp] theorem State.startGap_rxslot (p : Params) : (s.startGap p).rxslot = s.rxslot := rfl
@[simp] theorem State.startGap_txshadow (p : Params) : (s.startGap p).txshadow = s.txshadow := rfl
@[simp] theorem State.startGap_mode (p : Params) : (s.startGap p).mode = s.mode := rfl
@[simp] theorem State.startGap_dstate (p : Params) : (s.startGap p).dstate = s.dstate := rfl
@[simp] theorem State.startGap_cursor (p : Params) : (s.startGap p).cursor = s.cursor := rfl
@[simp] theorem State.startGap_txstate (p : Params) : (s.startGap p).txstate = .gap := rfl
@[simp] theorem State.startGap_txidx (p : Params) : (s.startGap p).txidx = s.txidx := rfl
@[simp] theorem State.startGap_tmr (p : Params) : (s.startGap p).tmr = p.tGap := rfl
@[simp] theorem State.startGap_brk (p : Params) : (s.startGap p).brk = s.brk := rfl
@[simp] theorem State.startGap_dir (p : Params) : (s.startGap p).dir = s.dir := rfl
@[simp] theorem State.startGap_pending (p : Params) : (s.startGap p).pending = s.pending := rfl
@[simp] theorem State.startGap_drvOk (p : Params) : (s.startGap p).drvOk = s.drvOk := rfl
@[simp] theorem State.startGap_trace (p : Params) : (s.startGap p).trace = s.trace := rfl

@[simp] theorem State.endGap_txslot : (s.endGap).txslot = s.txslot := rfl
@[simp] theorem State.endGap_rxslot : (s.endGap).rxslot = s.rxslot := rfl
@[simp] theorem State.endGap_txshadow : (s.endGap).txshadow = s.txshadow := rfl
@[simp] theorem State.endGap_mode : (s.endGap).mode = s.mode := rfl
@[simp] theorem State.endGap_dstate : (s.endGap).dstate = s.dstate := rfl
@[simp] theorem State.endGap_cursor : (s.endGap).cursor = s.cursor := rfl
@[simp] theorem State.endGap_txstate : (s.endGap).txstate = .waitIdle := rfl
@[simp] theorem State.endGap_txidx : (s.endGap).txidx = s.txidx := rfl
@[simp] theorem State.endGap_tmr : (s.endGap).tmr = s.tmr := rfl
@[simp] theorem State.endGap_brk : (s.endGap).brk = s.brk := rfl
@[simp] theorem State.endGap_dir : (s.endGap).dir = s.dir := rfl
@[simp] theorem State.endGap_pending : (s.endGap).pending = s.pending := rfl
@[simp] theorem State.endGap_drvOk : (s.endGap).drvOk = s.drvOk := rfl
@[simp] theorem State.endGap_trace : (s.endGap).trace = s.trace := rfl

theorem State.releaseBreak_eq :
    s.releaseBreak = { s with brk := false, trace := s.trace ++ if s.brk then [.brkOff] else [] } := by
  unfold State.releaseBreak
  cases h : s.brk
  · cases s
    simp_all
  · rfl

@[simp] theorem State.releaseBreak_txslot : (s.releaseBreak).txslot = s.txslot := by rw [State.releaseBreak_eq]
@[simp] theorem State.releaseBreak_rxslot : (s.releaseBreak).rxslot = s.rxslot := by rw [State.releaseBreak_eq]
@[simp] theorem State.releaseBreak_txshadow : (s.releaseBreak).txshadow = s.txshadow := by rw [State.releaseBreak_eq]
@[simp] theorem State.releaseBreak_mode : (s.releaseBreak).mode = s.mode := by rw [State.releaseBreak_eq]
@[simp] theorem State.releaseBreak_dstate : (s.releaseBreak).dstate = s.dstate := by rw [State.releaseBreak_eq]
@[simp] theorem State.releaseBreak_cursor : (s.releaseBreak).cursor = s.cursor := by rw [State.releaseBreak_eq]
@[simp] theorem State.releaseBreak_txstate : (s.releaseBreak).txstate = s.txstate := by rw [State.releaseBreak_eq]
@[simp] theorem State.releaseBreak_txidx : (s.releaseBreak).txidx = s.txidx := by rw [State.releaseBreak_eq]
@[simp] theorem State.releaseBreak_tmr : (s.releaseBreak).tmr = s.tmr := by rw [State.releaseBreak_eq]
@[simp] theorem State.releaseBreak_brk : (s.releaseBreak).brk = false := by rw [State.releaseBreak_eq]
@[simp] theorem State.releaseBreak_dir : (s.releaseBreak).dir = s.dir := by rw [State.releaseBreak_eq]
@[simp] theorem State.releaseBreak_pending : (s.releaseBreak).pending = s.pending := by rw [State.releaseBreak_eq]
@[simp] theorem State.releaseBreak_drvOk : (s.releaseBreak).drvOk = s.drvOk := by rw [State.releaseBreak_eq]
@[simp] theorem State.releaseBreak_trace : (s.releaseBreak).trace = s.trace ++ if s.brk then [.brkOff] else [] := by rw [State.releaseBreak_eq]

theorem State.teardown_eq :
    s.teardown = { s with txstate := .off, txidx := 0, tmr := 0, dstate := .idle, cursor := 0, brk := false, trace := s.trace ++ if s.brk then [.brkOff] else [] } := by
  unfold State.teardown
  rw [State.releaseBreak_eq]

@[simp] theorem State.teardown_txslot : (s.teardown).txslot = s.txslot := by rw [State.teardown_eq]
@[simp] theorem State.teardown_rxslot : (s.teardown).rxslot = s.rxslot := by rw [State.teardown_eq]
@[simp] theorem State.teardown_txshadow : (s.teardown).txshadow = s.txshadow := by rw [State.teardown_eq]
@[simp] theorem State.teardown_mode : (s.teardown).mode = s.mode := by rw [State.teardown_eq]
@[simp] theorem State.teardown_dstate : (s.teardown).dstate = .idle := by rw [State.teardown_eq]
@[simp] theorem State.teardown_cursor : (s.teardown).cursor = 0 := by rw [State.teardown_eq]
@[simp] theorem State.teardown_txstate : (s.teardown).txstate = .off := by rw [State.teardown_eq]
@[simp] theorem State.teardown_txidx : (s.teardown).txidx = 0 := by rw [State.teardown_eq]
@[simp] theorem State.teardown_tmr : (s.teardown).tmr = 0 := by rw [State.teardown_eq]
@[simp] theorem State.teardown_brk : (s.teardown).brk = false := by rw [State.teardown_eq]
@[simp] theorem State.teardown_dir : (s.teardown).dir = s.dir := by rw [State.teardown_eq]
@[simp] theorem State.teardown_pending : (s.teardown).pending = s.pending := by rw [State.teardown_eq]
@[simp] theorem State.teardown_drvOk : (s.teardown).drvOk = s.drvOk := by rw [State.teardown_eq]
@[simp] theorem State.teardown_trace : (s.teardown).trace = s.trace ++ if s.brk then [.brkOff] else [] := by rw [State.teardown_eq]

theorem State.applyReset_eq :
    s.applyReset = { s with txslot := [], rxslot := [], txshadow := [], mode := .stopped, txstate := .off, txidx := 0, tmr := 0, dstate := .idle, cursor := 0, brk := false, dir := false, trace := (s.trace ++ if s.brk then [.brkOff] else []) ++ [.dir false] } := by
  unfold State.applyReset
  rw [State.releaseBreak_eq]
  rfl

@[simp] theorem State.applyReset_txslot : (s.applyReset).txslot = [] := by rw [State.applyReset_eq]
@[simp] theorem State.applyReset_rxslot : (s.applyReset).rxslot = [] := by rw [State.applyReset_eq]
@[simp] theorem State.applyReset_txshadow : (s.applyReset).txshadow = [] := by rw [State.applyReset_eq]
@[simp] theorem State.applyReset_mode : (s.applyReset).mode = .stopped := by rw [State.applyReset_eq]
@[simp] theorem State.applyReset_dstate : (s.applyReset).dstate = .idle := by rw [State.applyReset_eq]
@[simp] theorem State.applyReset_cursor : (s.applyReset).cursor = 0 := by rw [State.applyReset_eq]
@[simp] theorem State.applyReset_txstate : (s.applyReset).txstate = .off := by rw [State.applyReset_eq]
@[simp] theorem State.applyReset_txidx : (s.applyReset).txidx = 0 := by rw [State.applyReset_eq]
@[simp] theorem State.applyReset_tmr : (s.applyReset).tmr = 0 := by rw [State.applyReset_eq]
@[simp] theorem State.applyReset_brk : (s.applyReset).brk = false := by rw [State.applyReset_eq]
@[simp] theorem State.applyReset_dir : (s.applyReset).dir = false := by rw [State.applyReset_eq]
@[simp] theorem State.applyReset_pending : (s.applyReset).pending = s.pending := by rw [State.applyReset_eq]
@[simp] theorem State.applyReset_drvOk : (s.applyReset).drvOk = s.drvOk := by rw [State.applyReset_eq]
@[simp] theorem State.applyReset_trace : (s.applyReset).trace = (s.trace ++ if s.brk then [.brkOff] else []) ++ [.dir false] := by rw [State.applyReset_eq]

theorem State.linkFault_eq :
    s.linkFault = { s with dstate := if s.dstate = .idle then .idle else .linkError, trace := s.trace ++ [.rxFlush] } := by
  unfold State.linkFault
  cases h : s.dstate <;> cases s <;> simp_all [State.emit]

@[simp] theorem State.linkFault_txslot : (s.linkFault).txslot = s.txslot := by rw [State.linkFault_eq]
@[simp] theorem State.linkFault_rxslot : (s.linkFault).rxslot = s.rxslot := by rw [State.linkFault_eq]
@[simp] theorem State.linkFault_txshadow : (s.linkFault).txshadow = s.txshadow := by rw [State.linkFault_eq]
@[simp] theorem State.linkFault_mode : (s.linkFault).mode = s.mode := by rw [State.linkFault_eq]
@[simp] theorem State.linkFault_dstate : (s.linkFault).dstate = if s.dstate = .idle then .idle else .linkError := by rw [State.linkFault_eq]
@[simp] theorem State.linkFault_cursor : (s.linkFault).cursor = s.cursor := by rw [State.linkFault_eq]
@[simp] theorem State.linkFault_txstate : (s.linkFault).txstate = s.txstate := by rw [State.linkFault_eq]
@[simp] theorem State.linkFault_txidx : (s.linkFault).txidx = s.txidx := by rw [State.linkFault_eq]
@[simp] theorem State.linkFault_tmr : (s.linkFault).tmr = s.tmr := by rw [State.linkFault_eq]
@[simp] theorem State.linkFault_brk : (s.linkFault).brk = s.brk := by rw [State.linkFault_eq]
@[simp] theorem State.linkFault_dir : (s.linkFault).dir = s.dir := by rw [State.linkFault_eq]
@[simp] theorem State.linkFault_pending : (s.linkFault).pending = s.pending := by rw [State.linkFault_eq]
@[simp] theorem State.linkFault_drvOk : (s.linkFault).drvOk = s.drvOk := by rw [State.linkFault_eq]
@[simp] theorem State.linkFault_trace : (s.linkFault).trace = s.trace ++ [.rxFlush] := by rw [State.linkFault_eq]

theorem State.tick_eq :
    s.tick = { s with tmr := if s.txstate.timed then s.tmr - 1 else s.tmr } := by
  unfold State.tick
  cases h : s.txstate.timed <;> cases s <;> simp
  all_goals intros; omega

@[simp] theorem State.tick_txslot : (s.tick).txslot = s.txslot := by rw [State.tick_eq]
@[simp] theorem State.tick_rxslot : (s.tick).rxslot = s.rxslot := by rw [State.tick_eq]
@[simp] theorem State.tick_txshadow : (s.tick).txshadow = s.txshadow := by rw [State.tick_eq]
@[simp] theorem State.tick_mode : (s.tick).mode = s.mode := by rw [State.tick_eq]
@[simp] theorem State.tick_dstate : (s.tick).dstate = s.dstate := by rw [State.tick_eq]
@[simp] theorem State.tick_cursor : (s.tick).cursor = s.cursor := by rw [State.tick_eq]
@[simp] theorem State.tick_txstate : (s.tick).txstate = s.txstate := by rw [State.tick_eq]
@[simp] theorem State.tick_txidx : (s.tick).txidx = s.txidx := by rw [State.tick_eq]
@[simp] theorem State.tick_tmr : (s.tick).tmr = if s.txstate.timed then s.tmr - 1 else s.tmr := by rw [State.tick_eq]
@[simp] theorem State.tick_brk : (s.tick).brk = s.brk := by rw [State.tick_eq]
@[simp] theorem State.tick_dir : (s.tick).dir = s.dir := by rw [State.tick_eq]
@[simp] theorem State.tick_pending : (s.tick).pending = s.pending := by rw [State.tick_eq]
@[simp] theorem State.tick_drvOk : (s.tick).drvOk = s.drvOk := by rw [State.tick_eq]
@[simp] theorem State.tick_trace : (s.tick).trace = s.trace := by rw [State.tick_eq]

end Sys2Proof.Machine
end

