-- ==== Sys2Proof/Laws/Receiver.lean ====
section
/-! SUPPORT. What `consume` and the receive guard can do (R91, R88). -/

namespace Sys2Proof.Machine

/-- `consume` from a cursor inside the buffer: the next state, as one equation. -/
theorem State.consume_next {s : State} (r : List Byte) (h : s.cursor.toNat ≤ 512) :
    s.consume r = .next { s with
      rxslot := s.rxslot.writeRun s.cursor.toNat (r.take (512 - s.cursor.toNat))
      cursor := BitVec.ofNat 10 (s.cursor.toNat + min r.length (512 - s.cursor.toNat))
      dstate := if 512 ≤ s.cursor.toNat + r.length then .frameDone else s.dstate } := by
  rw [State.consume, if_pos h]
  have e : r.take (min r.length (512 - s.cursor.toNat)) = r.take (512 - s.cursor.toNat) := by
    rw [Nat.min_comm, ← List.take_take, List.take_of_length_le (i := r.length) le_rfl]
  have d : (s.cursor.toNat + min r.length (512 - s.cursor.toNat) = 512) ↔ 512 ≤ s.cursor.toNat + r.length := by omega
  simp only [nslot, e, d]

theorem State.consume_fault {s : State} (r : List Byte) (h : 512 < s.cursor.toNat) :
    s.consume r = .fault .slotIndexOutOfRange := by
  rw [State.consume, if_neg (by simp only [nslot]; omega)]

/-- The cursor after `consume`. -/
theorem toNat_ofNat_cursor {n : Nat} (h : n ≤ 512) : (BitVec.ofNat 10 n).toNat = n := by
  rw [BitVec.toNat_ofNat, Nat.mod_eq_of_lt (by omega)]

/-- The slots after `consume`. -/
theorem Memory.read_consume {m : Memory} (h : m.wf = true) (i : Nat) (r : List Byte) (hi : i ≤ 512) (j : Nat) :
    (m.writeRun i (r.take (512 - i))).read j =
      if i ≤ j ∧ j < i + min r.length (512 - i) then r.getD (j - i) 0#8 else m.read j := by
  rw [Memory.read_writeRun h (by rw [List.length_take]; omega), List.length_take, Nat.min_comm]
  by_cases hj : i ≤ j ∧ j < i + min r.length (512 - i)
  · rw [if_pos hj, if_pos hj, List.getD_eq_getElem?_getD, List.getD_eq_getElem?_getD,
      List.getElem?_take_of_lt (by omega)]
  · rw [if_neg hj, if_neg hj]

theorem Memory.wf_consume {m : Memory} (h : m.wf = true) (i : Nat) (r : List Byte) (hi : i ≤ 512) :
    (m.writeRun i (r.take (512 - i))).wf = true :=
  Memory.wf_writeRun h (by rw [List.length_take]; omega)

/-- Outside Receive every event is dropped (R88). -/
theorem whenReceiving_drops {s : State} (act : Host.Outcome State Fault Refusal) (h : s.mode ≠ .receive) :
    whenReceiving s act = .next s := by
  unfold whenReceiving dropEvent
  cases e : s.mode
  · rfl
  · rfl
  · exact absurd e h

theorem whenReceiving_acts {s : State} (act : Host.Outcome State Fault Refusal) (h : s.mode = .receive) :
    whenReceiving s act = act := by
  simp only [whenReceiving, h]

end Sys2Proof.Machine
end

