-- ==== Sys2Proof/Laws/Sequencer.lean ====
section
/-! SUPPORT. What the label operations of the transmitter can do (R75 to R82), one inversion per label. -/

namespace Sys2Proof.Machine

theorem handPayload_next {s : State} (h : s.txidx.toNat < 512) :
    handPayload s = .next { s with
      trace := s.trace ++ [.txByte (s.txshadow.read s.txidx.toNat)]
      txidx := s.txidx + 1
      txstate := if s.txidx + 1 = 512#10 then .flush else .data } := by
  rw [handPayload, if_pos h]
  rfl

/-- Everything `TxReady` can do. -/
theorem txReady_cases (p : Params) (s : State) :
    (s.txstate = .sc ∧ txReady p s = .next (s.handStartCode p)) ∨
    (s.txstate = .data ∧ txReady p s = handPayload s) ∨
    (s.txstate ≠ .sc ∧ s.txstate ≠ .data ∧ txReady p s = .next s) := by
  unfold txReady
  cases s.txstate <;> simp

/-- Everything `TxDone` can do. -/
theorem State.txDone_cases (p : Params) (ok : Bool) (s : State) :
    (s.txstate = .waitIdle ∧ s.txDone p ok = s.assertBreak p) ∨
    (s.txstate = .flush ∧ s.txDone p ok = s.startGap p) ∨
    (s.txstate ≠ .waitIdle ∧ s.txstate ≠ .flush ∧ s.txDone p ok = s) := by
  unfold State.txDone
  cases s.txstate <;> simp

/-- Everything an internal step can do. -/
theorem State.internal_cases (p : Params) (s : State) :
    (s.txstate = .brk ∧ s.tmr = 0 ∧ s.internal p = s.endBreak p) ∨
    (s.txstate = .mab ∧ s.tmr = 0 ∧ s.internal p = s.takeSnapshot) ∨
    (s.txstate = .gap ∧ s.tmr = 0 ∧ s.internal p = s.endGap) ∨
    ((s.txstate.timed = true → s.tmr ≠ 0) ∧ s.internal p = s) := by
  unfold State.internal
  cases s.txstate <;> by_cases h : s.tmr = 0 <;> simp [h, TxState.timed]

end Sys2Proof.Machine
end

