-- ==== Sys2Proof/Laws/Deliver.lean ====
section
/-! SUPPORT. No transition reads or writes the schedule: delivering a label commutes with changing what is pending. -/

namespace Sys2Proof.Machine

/-- `s` with another schedule. -/
def State.withPending (ls : List Label) (s : State) : State := { s with pending := ls }

/-- An outcome with its next state changed. -/
def mapNext (f : State → State) : Host.Outcome State Fault Refusal → Host.Outcome State Fault Refusal
  | .next t => .next (f t)
  | .fault r => .fault r
  | .refused r => .refused r

@[simp] theorem mapNext_next (f : State → State) (t : State) : mapNext f (.next t) = .next (f t) := rfl
@[simp] theorem mapNext_fault (f : State → State) (r : Fault) : mapNext f (.fault r) = .fault r := rfl
@[simp] theorem mapNext_refused (f : State → State) (r : Refusal) : mapNext f (.refused r) = .refused r := rfl

theorem whenReceiving_withPending (ls : List Label) (s : State) (act act' : Host.Outcome State Fault Refusal)
    (h : act' = mapNext (State.withPending ls) act) :
    whenReceiving (s.withPending ls) act' = mapNext (State.withPending ls) (whenReceiving s act) := by
  subst h
  unfold whenReceiving dropEvent
  rw [show (s.withPending ls).mode = s.mode from rfl]
  cases s.mode <;> rfl

theorem State.consume_withPending (ls : List Label) (s : State) (r : List Byte) :
    (s.withPending ls).consume r = mapNext (State.withPending ls) (s.consume r) := by
  unfold State.consume
  rw [show (s.withPending ls).cursor = s.cursor from rfl]
  split <;> rfl

theorem State.teardown_withPending (ls : List Label) (s : State) :
    (s.withPending ls).teardown = s.teardown.withPending ls := by
  rw [State.teardown_eq, State.teardown_eq]
  rfl

theorem exec_withPending (i : Instr) (ls : List Label) (s : State) :
    exec i (s.withPending ls) = mapNext (State.withPending ls) (exec i s) := by
  cases i with
  | start m =>
    simp only [exec, execStart, State.teardown_withPending]
    rw [show (s.withPending ls).drvOk = s.drvOk from rfl]
    cases s.drvOk <;> cases m <;> rfl
  | stop =>
    simp only [exec, execStop, State.teardown_withPending]
    rfl
  | setch v a =>
    simp only [exec, execSetch]
    split <;> rfl
  | setuni p =>
    simp only [exec, execSetuni]
    split <;> rfl
  | write l o p =>
    simp only [exec, execWrite]
    split
    · split <;> rfl
    · rfl
  | getuni => rfl
  | getch a =>
    simp only [exec, execGetch]
    split <;> rfl
  | getrng c a =>
    simp only [exec, execGetrng]
    split <;> rfl
  | flush => rfl
  | getstat => rfl
  | evData n b =>
    refine whenReceiving_withPending ls s _ _ ?_
    split
    · cases b with
      | nil => rfl
      | cons first rest =>
        dsimp only
        rw [show (s.withPending ls).dstate = s.dstate from rfl]
        cases s.dstate with
        | breakDetected =>
          dsimp only
          split
          · exact State.consume_withPending ls { s with cursor := 0, dstate := .receiving } rest
          · rfl
        | receiving => exact State.consume_withPending ls s _
        | idle => rfl
        | frameDone => rfl
        | linkError => rfl
    · rfl
  | evBreak =>
    refine whenReceiving_withPending ls s _ _ ?_
    rw [show (s.withPending ls).dstate = s.dstate from rfl]
    cases s.dstate <;> rfl
  | evFerr => exact whenReceiving_withPending ls s _ _ (by rw [State.linkFault_eq, State.linkFault_eq]; rfl)
  | evPerr => exact whenReceiving_withPending ls s _ _ (by rw [State.linkFault_eq, State.linkFault_eq]; rfl)
  | evOvf => exact whenReceiving_withPending ls s _ _ (by rw [State.linkFault_eq, State.linkFault_eq]; rfl)
  | evBfull => exact whenReceiving_withPending ls s _ _ (by rw [State.linkFault_eq, State.linkFault_eq]; rfl)

/-- Delivering a label commutes with changing the schedule. -/
theorem deliver_withPending (p : Params) (l : Label) (ls : List Label) (s : State) :
    deliver p l (s.withPending ls) = mapNext (State.withPending ls) (deliver p l s) := by
  cases l with
  | cmd w payload ok =>
    simp only [deliver, deliverCommand]
    cases decode (.cmd w payload) with
    | ok i => exact exec_withPending i ls { s with drvOk := ok }
    | error _ => rfl
  | evt e b =>
    simp only [deliver, deliverEvent]
    cases decode (.evt e b) with
    | ok i => exact exec_withPending i ls s
    | error _ => rfl
  | tick =>
    simp only [deliver, State.tick_eq]
    rfl
  | txReady =>
    simp only [deliver, txReady]
    rw [show (s.withPending ls).txstate = s.txstate from rfl]
    cases s.txstate with
    | data =>
      simp only [handPayload]
      rw [show (s.withPending ls).txidx = s.txidx from rfl]
      split <;> rfl
    | sc => rfl
    | off => rfl
    | waitIdle => rfl
    | brk => rfl
    | mab => rfl
    | flush => rfl
    | gap => rfl
  | txDone ok =>
    simp only [deliver, State.txDone]
    rw [show (s.withPending ls).txstate = s.txstate from rfl]
    cases s.txstate <;> rfl
  | reset =>
    simp only [deliver, State.applyReset_eq]
    rfl
  | internal =>
    simp only [deliver, State.internal]
    rw [show (s.withPending ls).txstate = s.txstate from rfl, show (s.withPending ls).tmr = s.tmr from rfl]
    cases s.txstate <;> first | rfl | (by_cases h : s.tmr = 0 <;> simp only [h, if_true, if_false] <;> rfl)

/-- A transition leaves the schedule as it is. -/
theorem deliver_pending {p : Params} {l : Label} {s t : State} (h : deliver p l s = .next t) :
    t.pending = s.pending := by
  have e := deliver_withPending p l s.pending s
  rw [show s.withPending s.pending = s from rfl, h] at e
  rw [mapNext_next] at e
  injection e with e
  rw [e]
  rfl

end Sys2Proof.Machine
end

