-- ==== Sys2Proof/Laws/PerInstr.lean ====
section
/-! SUPPORT. One statement about every instruction as syntax: its encoded word lies in the row of its own instruction and carries the byte run that row fixes (R53, R54, R58, R59). -/

namespace Sys2Proof.Laws.EncodesInItsRow

/-- The row of the command table an instruction belongs to. -/
def commandRow : Instr → Option CmdOp
  | .start _ => some .start
  | .stop => some .stop
  | .setch _ _ => some .setch
  | .setuni _ => some .setuni
  | .write _ _ _ => some .write
  | .getuni => some .getuni
  | .getch _ => some .getch
  | .getrng _ _ => some .getrng
  | .flush => some .flush
  | .getstat => some .getstat
  | .evData _ _ => none
  | .evBreak => none
  | .evFerr => none
  | .evPerr => none
  | .evOvf => none
  | .evBfull => none

/-- The row of the event table an instruction belongs to. -/
def eventRow : Instr → Option EvtOp
  | .evData _ _ => some .data
  | .evBreak => some .brk
  | .evFerr => some .ferr
  | .evPerr => some .perr
  | .evOvf => some .ovf
  | .evBfull => some .bfull
  | .start _ => none
  | .stop => none
  | .setch _ _ => none
  | .setuni _ => none
  | .write _ _ _ => none
  | .getuni => none
  | .getch _ => none
  | .getrng _ _ => none
  | .flush => none
  | .getstat => none

/-- A well-formed instruction is encoded by a word its own row selects, with a byte run of the length fixed. -/
def Statement (i : Instr) : Prop :=
  i.wellFormed = true →
    match encode i with
    | .cmd w p => cmdOf w = commandRow i ∧ p.length = payloadLength w
    | .evt e b => evtOf e = eventRow i ∧ b.length = (evtLen e).toNat

theorem start (m : StartMode) : Statement (.start m) := by
  intro _
  cases m <;> exact ⟨by decide, by decide⟩

theorem stop : Statement .stop := by
  intro _
  exact ⟨by decide, by decide⟩

theorem setch (v : Byte) (a : Field) : Statement (.setch v a) := by
  intro _
  have h := cmdOf_packCmd .setch (v := v) (b := 0) (a := a) rfl
  exact ⟨h, by simp only [payloadLength, CmdOp.opcode] at h ⊢; rw [h]; rfl⟩

theorem setuni (p : List Byte) : Statement (.setuni p) := by
  intro hp
  exact ⟨(by decide : cmdOf (packCmd 4 0 0 0) = some .setuni), (beq_iff_eq.1 hp).trans (by decide)⟩

theorem write (l o : Field) (p : List Byte) : Statement (.write l o p) := by
  intro hp
  have h := cmdOf_packCmd .write (v := 0) (b := l) (a := o) rfl
  refine ⟨h, ?_⟩
  have h' : cmdOf (packCmd 0x5 0 l o) = some .write := h
  rw [payloadLength, h']
  exact (beq_iff_eq.1 hp).trans (by rw [wordB_packCmd])

theorem getuni : Statement .getuni := by
  intro _
  exact ⟨by decide, by decide⟩

theorem getch (a : Field) : Statement (.getch a) := by
  intro _
  have h := cmdOf_packCmd .getch (v := 0) (b := 0) (a := a) ⟨rfl, rfl⟩
  exact ⟨h, by simp only [payloadLength, CmdOp.opcode] at h ⊢; rw [h]; rfl⟩

theorem getrng (c s : Field) : Statement (.getrng c s) := by
  intro _
  have h := cmdOf_packCmd .getrng (v := 0) (b := c) (a := s) rfl
  exact ⟨h, by simp only [payloadLength, CmdOp.opcode] at h ⊢; rw [h]; rfl⟩

theorem flush : Statement .flush := by
  intro _
  exact ⟨by decide, by decide⟩

theorem getstat : Statement .getstat := by
  intro _
  exact ⟨by decide, by decide⟩

theorem evData (n : Field) (b : List Byte) : Statement (.evData n b) := by
  intro h
  simp only [Instr.wellFormed, Bool.and_eq_true, beq_iff_eq, decide_eq_true_eq] at h
  exact ⟨evtOf_packEvt .data h.2, h.1.trans (by rw [evtLen_packEvt])⟩

theorem evBreak : Statement .evBreak := by
  intro _
  exact ⟨by decide, by decide⟩

theorem evFerr : Statement .evFerr := by
  intro _
  exact ⟨by decide, by decide⟩

theorem evPerr : Statement .evPerr := by
  intro _
  exact ⟨by decide, by decide⟩

theorem evOvf : Statement .evOvf := by
  intro _
  exact ⟨by decide, by decide⟩

theorem evBfull : Statement .evBfull := by
  intro _
  exact ⟨by decide, by decide⟩

end Sys2Proof.Laws.EncodesInItsRow
end

