-- ==== Sys2Proof/Laws/Runs.lean ====
section
/-! SUPPORT. Runs over labels: their composition, a run of Ticks in a timed state (R76), and a run of TxReady in TX_DATA (R80). -/

namespace Sys2Proof.Machine

/-- A run over two lists of labels is a run over the first and then, from where it ends, over the second. -/
theorem runLabels_append (p : Params) (as bs : List Label) (s : State) :
    runLabels p (as ++ bs) s =
      match runLabels p as s with
      | .next t => runLabels p bs t
      | .fault r => .fault r
      | .refused r => .refused r := by
  induction as generalizing s with
  | nil => rfl
  | cons a as ih =>
    simp only [List.cons_append, runLabels]
    cases deliver p a s with
    | next t => exact ih t
    | fault r => rfl
    | refused r => rfl

/-- `n` Ticks in a timed state count `TMR` down by `n`. -/
theorem runLabels_ticks (p : Params) {s : State} {n : Nat} (ht : s.txstate.timed = true) (hn : n ≤ s.tmr) :
    runLabels p (List.replicate n .tick) s = .next { s with tmr := s.tmr - n } := by
  induction n generalizing s with
  | zero => rfl
  | succ n ih =>
    have e : deliver p .tick s = .next { s with tmr := s.tmr - 1 } := by
      simp only [deliver, State.tick]
      rw [if_pos (by simp [ht]; omega)]
    simp only [List.replicate_succ, runLabels, e]
    rw [ih (s := { s with tmr := s.tmr - 1 }) ht (Nat.le_sub_of_add_le hn)]
    congr 2
    show s.tmr - 1 - n = s.tmr - (n + 1)
    omega

/-- In TX_DATA as many `TxReady` as slots are left hand over the rest of the snapshot and lead to TX_FLUSH. -/
theorem runLabels_readies (p : Params) {s : State} {n : Nat} (hd : s.txstate = .data) (hn : s.txidx.toNat + n = 512)
    (h1 : 1 ≤ n) :
    runLabels p (List.replicate n .txReady) s = .next { s with
      txstate := .flush, txidx := 512
      trace := s.trace ++ (s.txshadow.readRun s.txidx.toNat n).map .txByte } := by
  induction n generalizing s with
  | zero => omega
  | succ n ih =>
    have e : deliver p .txReady s = handPayload s := by simp only [deliver, txReady, hd]
    have hi : (s.txidx + 1).toNat = s.txidx.toNat + 1 := by
      rw [BitVec.toNat_add]
      simp
      omega
    have h512 : (s.txidx + 1 = 512#10) ↔ n = 0 := by
      rw [← BitVec.toNat_inj, hi]
      simp
      omega
    simp only [List.replicate_succ, runLabels, e, handPayload_next (show s.txidx.toNat < 512 by omega), h512]
    by_cases h0 : n = 0
    · subst h0
      have e1 : s.txidx + 1 = 512#10 := h512.2 rfl
      simp only [runLabels, List.replicate_zero, Memory.readRun, e1, if_true, List.map_cons, List.map_nil]
      rfl
    · simp only [h0, if_false]
      rw [ih rfl (by dsimp only; omega) (by omega)]
      simp only [hi, Memory.readRun, List.map_cons, List.append_assoc, List.singleton_append]

end Sys2Proof.Machine
end

