-- ==== Sys2Proof/Tests/Slice0.lean ====
section
/-! SUPPORT. Tests of the model against the spec's own vectors (95_test_vectors.md), words written out from the encoding tables, and for every statement with hypotheses a concrete input that meets them. -/

namespace Sys2Proof.Tests

open Sys2Proof.Machine

/-! ## Helpers -/

/-- The line `MODE/DSTATE/CURSOR | TXSTATE/TXIDX/TMR | brk dir` of 95_test_vectors.md. -/
def line (s : State) : List Nat :=
  [s.mode.code.toNat, s.dstate.code.toNat, s.cursor.toNat, s.txstate.code.toNat, s.txidx.toNat, s.tmr,
    s.brk.toNat, s.dir.toNat]

/-- The line after one transition and its outputs, from a state whose trace is empty. -/
def effect (p : Params) (l : Label) (s : State) : Option (List Nat × List Output) :=
  match deliver p l s with
  | .next t => some (line t, t.trace)
  | .fault _ => none
  | .refused _ => none

/-- The values of some slots of the send buffer after one transition. -/
def sendAfter (l : Label) (s : State) (idx : List Nat) : Option (List Byte × List Output) :=
  match deliver Params.default l s with
  | .next t => some (idx.map t.txslot.read, t.trace)
  | .fault _ => none
  | .refused _ => none

/-- The values of some slots of the receive buffer after one transition. -/
def recvAfter (l : Label) (s : State) (idx : List Nat) : Option (List Byte) :=
  match deliver Params.default l s with
  | .next t => some (idx.map t.rxslot.read)
  | .fault _ => none
  | .refused _ => none

/-- Whether a transition answers a next state. -/
def completes (o : Host.Outcome State Fault Refusal) : Bool :=
  match o with
  | .next _ => true
  | .fault _ => false
  | .refused _ => false

/-- A state of Receive mode. -/
def rx (d : DState) (cursor : Field) (m : Memory) : State :=
  { State.reset with mode := .receive, dstate := d, cursor := cursor, rxslot := m }

/-- A state of Transmit mode. -/
def tx (x : TxState) (idx : Field) (tmr : Nat) : State :=
  { State.reset with mode := .transmit, dir := true, txstate := x, txidx := idx, tmr := tmr, brk := x == .brk }

/-- 512 slots of 0x11. -/
def ones : Memory := (List.range 512).map fun i => (i, 0x11#8)

/-! ## Well-formedness: one ill-formed term for each check -/

theorem test_wellFormed_setuni_short : (Instr.setuni (List.replicate 511 0)).wellFormed = false := by decide +kernel
theorem test_wellFormed_write_length : (Instr.write 2 0 [7]).wellFormed = false := by decide
theorem test_wellFormed_data_length : (Instr.evData 2 [7]).wellFormed = false := by decide
theorem test_wellFormed_data_empty : (Instr.evData 0 []).wellFormed = false := by decide

/-! ## Decoding: one word of every row, bit by bit from the patterns of R54 and R59 -/

theorem test_decode_start_tx : decode (.cmd 0b0001_0000000000000000000000000000#32 []) = .ok (.start .tx) := rfl
theorem test_decode_start_rx : decode (.cmd 0b0001_0000000000000000000000000001#32 []) = .ok (.start .rx) := rfl
theorem test_decode_stop : decode (.cmd 0b0010_0000000000000000000000000000#32 []) = .ok .stop := rfl
/-- `SETCH 6, 255` (95 2.1). -/
theorem test_decode_setch :
    decode (.cmd 0b0011_11111111_0000000000_0000000110#32 []) = .ok (.setch 255 6) := rfl
theorem test_decode_setuni :
    decode (.cmd 0b0100_0000000000000000000000000000#32 (List.replicate 512 9)) = .ok (.setuni (List.replicate 512 9)) := by
  decide +kernel
/-- `WRITE 5, 2` (95 2.1): the length lies in bits 19 to 10, the offset in bits 9 to 0. -/
theorem test_decode_write :
    decode (.cmd 0b0101_00000000_0000000010_0000000101#32 [1, 2]) = .ok (.write 2 5 [1, 2]) := rfl
theorem test_decode_getuni : decode (.cmd 0b0110_0000000000000000000000000000#32 []) = .ok .getuni := rfl
/-- `GETCH 512` (95 2.1). -/
theorem test_decode_getch :
    decode (.cmd 0b0111_000000000000000000_1000000000#32 []) = .ok (.getch 512) := rfl
/-- `GETRNG 10, 3` (95 2.1): the count lies in bits 19 to 10, the start address in bits 9 to 0. -/
theorem test_decode_getrng :
    decode (.cmd 0b1000_00000000_0000000011_0000001010#32 []) = .ok (.getrng 3 10) := rfl
theorem test_decode_flush : decode (.cmd 0b1001_0000000000000000000000000000#32 []) = .ok .flush := rfl
theorem test_decode_getstat : decode (.cmd 0b1010_0000000000000000000000000000#32 []) = .ok .getstat := rfl
theorem test_decode_evData : decode (.evt 0b000_000_0000000011#16 [9, 8, 7]) = .ok (.evData 3 [9, 8, 7]) := rfl
theorem test_decode_evBreak : decode (.evt 0b001_000_0000000000#16 []) = .ok .evBreak := rfl
theorem test_decode_evFerr : decode (.evt 0b010_000_0000000000#16 []) = .ok .evFerr := rfl
theorem test_decode_evPerr : decode (.evt 0b011_000_0000000000#16 []) = .ok .evPerr := rfl
theorem test_decode_evOvf : decode (.evt 0b100_000_0000000000#16 []) = .ok .evOvf := rfl
theorem test_decode_evBfull : decode (.evt 0b101_000_0000000000#16 []) = .ok .evBfull := rfl

/-- The field assembly of 95 2.1. -/
theorem test_encode_assembly :
    encode (.setch 255 512) = .cmd 0x3FF00200 [] ∧ encode (.getrng 512 1) = .cmd 0x80080001 [] ∧
    encode (.getrng 3 510) = .cmd 0x80000DFE [] ∧ encode (.start .rx) = .cmd 0x10000001 [] := by decide

/-- V-ENC-1 to V-ENC-16 but for the two payload rows: the illegal words, with the reason the decoder names. -/
theorem test_decode_illegal :
    [0x00000000#32, 0x10000002, 0x20000001, 0x30000400, 0x40000001, 0x50100000, 0x60000001, 0x70000400, 0x80100401,
      0x90000001, 0xA0000001, 0xB0000000, 0xF0000000, 0xFFFFFFFF].map (fun w => decodeCmd w []) =
    [.error .illegalOpcode] ++ List.replicate 10 (.error .reservedBits) ++ List.replicate 3 (.error .illegalOpcode) := rfl

/-- V-ENC-6 and V-ENC-8. -/
theorem test_decode_payload :
    decode (.cmd 0x40000000 (List.replicate 511 0)) = .error .payloadLength ∧
    decode (.cmd 0x50000400 []) = .error .payloadLength := by decide +kernel

/-- The dropped descriptors of 95 2.1. -/
theorem test_decode_reserved_descriptors :
    decode (.evt 0x0000 []) = .error .emptyData ∧ decode (.evt 0x2001 [0]) = .error .conditionLength ∧
    decode (.evt 0x0401 [0]) = .error .reservedEventBits ∧ decode (.evt 0xC000 []) = .error .reservedType ∧
    decode (.evt 0xE000 []) = .error .reservedType ∧ decode (.evt 0x4400 []) = .error .reservedEventBits :=
  ⟨rfl, rfl, rfl, rfl, rfl, rfl⟩

/-- No two rows of either table overlap. -/
theorem test_rows_disjoint :
    (allCmds.map fun c => (c.pattern, c.mask)).Pairwise (fun r q => (r.1 ^^^ q.1) &&& r.2 &&& q.2 ≠ 0) ∧
    (allEvts.map fun c => (c.pattern, c.mask)).Pairwise (fun r q => (r.1 ^^^ q.1) &&& r.2 &&& q.2 ≠ 0) := by decide

/-! ## Table words, fetched and run first after reset -/

/-- A word of the table is what the first step runs: GETSTAT at reset answers 0x00 (95 2.5), an event is dropped
(V-RX-27), and a word of 16 bits is a descriptor. -/
theorem test_fetch :
    decodeTableWord 32 0xA0000000 = some .getstat ∧
    step (State.reset.withFetchWord 32 0xA0000000) = .next { State.reset with trace := [.rsp .ok [0x00]] } ∧
    decodeTableWord 16 0x2000 = some .evBreak ∧ step (State.reset.withFetchWord 16 0x2000) = .next State.reset ∧
    decodeTableWord 32 0x50000805 = some (.write 2 5 [0, 0]) ∧ decodeTableWord 16 0x0000 = none ∧
    decodeTableWord 32 0xB0000000 = none := ⟨rfl, rfl, rfl, rfl, rfl, rfl, rfl⟩

/-! ## Write commands (95 2.2) -/

/-- V-WR-4 and V-WR-2: the last slot, and the empty run at offset 512. -/
theorem test_write_edge :
    sendAfter (.cmd 0x500005FF [7] true) State.reset [0, 1, 510, 511] = some ([0, 0, 0, 7], [.rsp .ok []]) ∧
    sendAfter (.cmd 0x50000200 [] true) State.reset [511] = some ([0], [.rsp .ok []]) := by decide
/-- V-WR-5 and V-WR-3: one beyond, neither byte written. -/
theorem test_write_out :
    sendAfter (.cmd 0x500009FF [7, 7] true) State.reset [510, 511] = some ([0, 0], [.rsp .outOfRange []]) ∧
    sendAfter (.cmd 0x50000201 [] true) State.reset [511] = some ([0], [.rsp .outOfRange []]) := by decide
/-- V-WR-9 and V-WR-10: the first and the last address. -/
theorem test_setch_edge :
    sendAfter (.cmd 0x30A00001 [] true) State.reset [0, 1, 511] = some ([10, 0, 0], [.rsp .ok []]) ∧
    sendAfter (.cmd 0x30A00200 [] true) State.reset [0, 510, 511] = some ([0, 0, 10], [.rsp .ok []]) := by decide
/-- V-WR-11 and V-WR-12, S6. -/
theorem test_setch_out :
    sendAfter (.cmd 0x30A00000 [] true) State.reset [0] = some ([0], [.rsp .outOfRange []]) ∧
    sendAfter (.cmd 0x30A00201 [] true) State.reset [511] = some ([0], [.rsp .outOfRange []]) := by decide
/-- V-WR-14 from the state of V-WR-12. -/
theorem test_setuni_zeros :
    sendAfter (.cmd 0x40000000 (List.replicate 512 0) true) { State.reset with txslot := [(0, 10), (511, 10)] }
      [0, 1, 510, 511] = some ([0, 0, 0, 0], [.rsp .ok []]) := by decide +kernel

/-! ## Read commands (95 2.3) -/

/-- V-RD-8 and V-RD-2, with slots 1, 2 and 511 of the start state given there. -/
theorem test_getrng :
    effect Params.default (.cmd 0x80000801 [] true) { State.reset with rxslot := [(0, 1), (1, 2), (510, 255)] } =
      some ([0, 0, 0, 0, 0, 0, 0, 0], [.rsp .ok [1, 2]]) ∧
    effect Params.default (.cmd 0x80000600 [] true) { State.reset with rxslot := [(0, 1), (1, 2), (510, 255)] } =
      some ([0, 0, 0, 0, 0, 0, 0, 0], [.rsp .ok [0]]) := by decide
/-- V-RD-3, V-RD-4, V-RD-5, V-RD-7. -/
theorem test_getrng_out :
    [0x80000A00#32, 0x80000400, 0x80000001, 0x800FFFFF].map (fun w => effect Params.default (.cmd w [] true) State.reset) =
    List.replicate 4 (some ([0, 0, 0, 0, 0, 0, 0, 0], [.rsp .outOfRange []])) := by decide
/-- V-RD-11 and V-RD-12. -/
theorem test_getch :
    effect Params.default (.cmd 0x70000001 [] true) { State.reset with rxslot := [(0, 1)] } =
      some ([0, 0, 0, 0, 0, 0, 0, 0], [.rsp .ok [1]]) ∧
    effect Params.default (.cmd 0x70000200 [] true) { State.reset with rxslot := [(0, 1)] } =
      some ([0, 0, 0, 0, 0, 0, 0, 0], [.rsp .ok [0]]) := by decide
/-- V-RD-13, V-RD-14, V-RD-15. -/
theorem test_getch_out :
    [0x70000000#32, 0x70000201, 0x700003FF].map (fun w => effect Params.default (.cmd w [] true) State.reset) =
    List.replicate 3 (some ([0, 0, 0, 0, 0, 0, 0, 0], [.rsp .outOfRange []])) := by decide
/-- V-RD-16. -/
theorem test_getuni_reset :
    effect Params.default (.cmd 0x60000000 [] true) State.reset =
      some ([0, 0, 0, 0, 0, 0, 0, 0], [.rsp .ok (List.replicate 512 0)]) := by decide +kernel

/-! ## Link control (95 2.6) -/

/-- V-LC-1 and V-LC-4. -/
theorem test_start :
    effect Params.default (.cmd 0x10000000 [] true) State.reset =
      some ([1, 0, 0, 1, 0, 0, 0, 1], [.linkCfg, .dir true, .rsp .ok []]) ∧
    effect Params.default (.cmd 0x10000001 [] true) (tx .brk 0 150) =
      some ([2, 0, 0, 0, 0, 0, 0, 0], [.brkOff, .linkCfg, .dir false, .rsp .ok []]) := by decide
/-- V-LC-3 and V-LC-5: the driver fails. -/
theorem test_start_driver :
    effect Params.default (.cmd 0x10000000 [] false) State.reset =
      some ([0, 0, 0, 0, 0, 0, 0, 0], [.linkCfg, .dir false, .rsp .driverError []]) ∧
    effect Params.default (.cmd 0x10000000 [] false) (tx .brk 0 150) =
      some ([0, 0, 0, 0, 0, 0, 0, 0], [.brkOff, .linkCfg, .dir false, .rsp .driverError []]) := by decide
/-- V-TX-15 and V-LC-8. -/
theorem test_stop :
    effect Params.default (.cmd 0x20000000 [] true) (tx .brk 0 150) =
      some ([0, 0, 0, 0, 0, 0, 0, 0], [.brkOff, .dir false, .rsp .ok []]) ∧
    effect Params.default (.cmd 0x20000000 [] true) State.reset =
      some ([0, 0, 0, 0, 0, 0, 0, 0], [.dir false, .rsp .ok []]) := by decide
/-- V-LC-9 and V-LC-10. -/
theorem test_flush :
    effect Params.default (.cmd 0x90000000 [] true) (rx .linkError 100 []) =
      some ([2, 4, 100, 0, 0, 0, 0, 0], [.rxFlush, .rsp .ok []]) ∧
    effect Params.default (.cmd 0x90000000 [] true) (tx .data 7 0) =
      some ([1, 0, 0, 5, 7, 0, 0, 1], [.rxFlush, .rsp .ok []]) := by decide
/-- V-LC-11 and the bytes of 95 2.5. -/
theorem test_getstat :
    effect Params.default (.cmd 0xA0000000 [] true) (rx .linkError 100 []) =
      some ([2, 4, 100, 0, 0, 0, 0, 0], [.rsp .ok [0x12]]) ∧
    [DState.idle, .breakDetected, .receiving, .frameDone, .linkError].map (fun d => statusByte d .receive) =
      [0x02, 0x06, 0x0A, 0x0E, 0x12] := by decide
/-- V-LC-12 and V-LC-13. -/
theorem test_reset_and_illegal :
    deliver Params.default .reset { tx .brk 0 250 with txslot := [(3, 1)], rxslot := [(4, 1)], txshadow := [(5, 1)] } =
      .next { State.reset with trace := [.brkOff, .dir false] } ∧
    effect Params.default (.cmd 0x10000002 [] true) (tx .waitIdle 0 0) =
      some ([1, 0, 0, 1, 0, 0, 0, 1], [.rsp .illegalCommand []]) := ⟨rfl, rfl⟩

/-! ## Transmitter (95 2.4) -/

/-- V-TX-2, V-TX-11 and V-TX-13: a failed completion, and nobody waiting. -/
theorem test_txDone :
    effect Params.default (.txDone false) (tx .waitIdle 0 0) = some ([1, 0, 0, 2, 0, 250, 1, 1], [.brkOn]) ∧
    effect Params.default (.txDone false) (tx .flush 512 0) = some ([1, 0, 0, 7, 512, 10000, 0, 1], []) ∧
    effect Params.default (.txDone true) (tx .data 100 0) = some ([1, 0, 0, 5, 100, 0, 0, 1], []) := by decide
/-- V-TX-3 (its first Tick), V-TX-4 and V-TX-14. -/
theorem test_tick :
    effect Params.default .tick (tx .brk 0 250) = some ([1, 0, 0, 2, 0, 249, 1, 1], []) ∧
    effect Params.default .tick (tx .brk 0 0) = some ([1, 0, 0, 2, 0, 0, 1, 1], []) ∧
    effect Params.default .tick (tx .sc 0 0) = some ([1, 0, 0, 4, 0, 0, 0, 1], []) := by decide
/-- V-TX-5, V-TX-6 and V-TX-12. -/
theorem test_internal :
    effect Params.default .internal (tx .brk 0 0) = some ([1, 0, 0, 3, 0, 20, 0, 1], [.brkOff]) ∧
    effect Params.default .internal (tx .brk 0 1) = some ([1, 0, 0, 2, 0, 1, 1, 1], []) ∧
    effect Params.default .internal (tx .gap 512 0) = some ([1, 0, 0, 1, 512, 0, 0, 1], []) := by decide
/-- V-TX-7: the snapshot shows the first SETCH without the second, and `TXIDX` goes from 512 to 0. -/
theorem test_snapshot :
    deliver Params.default .internal { tx .mab 512 0 with txslot := [(0, 1)], txshadow := [(7, 7)] } =
      .next { tx .sc 0 0 with txslot := [(0, 1)], txshadow := [(0, 1)] } := rfl
/-- V-TX-8, V-TX-9 and V-TX-10. -/
theorem test_txReady :
    effect { Params.default with startCode := 0x17 } .txReady (tx .sc 0 0) =
      some ([1, 0, 0, 5, 0, 0, 0, 1], [.txByte 0x17]) ∧
    effect Params.default .txReady { tx .data 511 0 with txshadow := [(511, 0xAB)] } =
      some ([1, 0, 0, 6, 512, 0, 0, 1], [.txByte 0xAB]) ∧
    effect Params.default .txReady (tx .flush 512 0) = some ([1, 0, 0, 6, 512, 0, 0, 1], []) := by decide

/-! ## Receiver (95 2.5) -/

/-- V-RX-1, V-RX-9 and V-RX-17. -/
theorem test_evBreak :
    effect Params.default (.evt 0x2000 []) (rx .idle 0 []) = some ([2, 1, 0, 0, 0, 0, 0, 0], [.rxFlush]) ∧
    effect Params.default (.evt 0x2000 []) (rx .receiving 200 []) = some ([2, 3, 200, 0, 0, 0, 0, 0], []) ∧
    effect Params.default (.evt 0x2000 []) (rx .linkError 100 []) = some ([2, 1, 0, 0, 0, 0, 0, 0], [.rxFlush]) := by
  decide
/-- V-RX-6, V-RX-7, V-RX-23, V-RX-24 and V-RX-14: where the decoder goes. -/
theorem test_evData :
    effect Params.default (.evt 3 [0x00, 5, 6]) (rx .breakDetected 0 []) = some ([2, 2, 2, 0, 0, 0, 0, 0], []) ∧
    effect Params.default (.evt 3 [0x17, 5, 6]) (rx .breakDetected 0 []) = some ([2, 3, 0, 0, 0, 0, 0, 0], []) ∧
    effect Params.default (.evt 4 [1, 2, 3, 4]) (rx .receiving 510 []) = some ([2, 3, 512, 0, 0, 0, 0, 0], []) ∧
    effect Params.default (.evt 1 [9]) (rx .receiving 511 []) = some ([2, 3, 512, 0, 0, 0, 0, 0], []) ∧
    effect Params.default (.evt 2 [0x00, 5]) (rx .frameDone 512 []) = some ([2, 3, 512, 0, 0, 0, 0, 0], []) := by decide
/-- V-RX-10 and V-RX-6: what is stored, over slots of 0x11. -/
theorem test_evData_slots :
    recvAfter (.evt 2 [0x00, 5]) (rx .receiving 200 ones) [199, 200, 201, 202] = some [0x11, 0, 5, 0x11] ∧
    recvAfter (.evt 3 [0x00, 5, 6]) (rx .breakDetected 0 ones) [0, 1, 2] = some [5, 6, 0x11] := by decide +kernel
/-- V-RX-4 and V-RX-20. -/
theorem test_evFerr :
    effect Params.default (.evt 0x4000 []) (rx .idle 0 []) = some ([2, 0, 0, 0, 0, 0, 0, 0], [.rxFlush]) ∧
    effect Params.default (.evt 0x4000 []) (rx .linkError 100 []) = some ([2, 4, 100, 0, 0, 0, 0, 0], [.rxFlush]) := by
  decide
/-- V-RX-8. -/
theorem test_evPerr :
    effect Params.default (.evt 0x6000 []) (rx .breakDetected 0 []) = some ([2, 4, 0, 0, 0, 0, 0, 0], [.rxFlush]) := by
  decide
/-- V-RX-12. -/
theorem test_evOvf :
    effect Params.default (.evt 0x8000 []) (rx .receiving 200 []) = some ([2, 4, 200, 0, 0, 0, 0, 0], [.rxFlush]) := by
  decide
/-- V-RX-16. -/
theorem test_evBfull :
    effect Params.default (.evt 0xA000 []) (rx .frameDone 512 []) = some ([2, 4, 512, 0, 0, 0, 0, 0], [.rxFlush]) := by
  decide

/-! ## Witnesses: for every statement with hypotheses, inputs that meet them

A theorem witness_X lists inputs that meet the hypotheses of the obligation X, one or more for each clause, at the
boundary values of its ranges. -/

/-- The shortest and the longest instantiations TMR_W = 14 allows (R5). -/
def shortest : Params := { tmrW := 14, tBreak := 88, tMab := 12, tGap := 0, startCode := 0 }
def longest : Params := { tmrW := 14, tBreak := 16383, tMab := 16383, tGap := 16383, startCode := 255 }

theorem inv_reset : Inv Params.default State.reset where
  txslotWf := rfl
  rxslotWf := rfl
  txshadowWf := rfl
  txOff := by decide
  rxIdle := by decide
  cursorLe := by decide
  receivingRoom := by decide
  txidxLe := by decide
  dataRoom := by decide
  scIndex := by decide
  sentIndex := by decide
  brkIff := by decide
  dirIff := by decide
  tmrZero := by decide
  tmrWidth := by decide

/-- The invariant at the machine's own parameters, whatever they are. -/
theorem inv_reset_params : Inv Config.params State.reset :=
  { inv_reset with tmrWidth := Nat.two_pow_pos _ }

/-- The invariant in the middle of a break: a state a run reaches. -/
theorem inv_break : Inv Params.default (tx .brk 0 250) where
  txslotWf := rfl
  rxslotWf := rfl
  txshadowWf := rfl
  txOff := by decide
  rxIdle := by decide
  cursorLe := by decide
  receivingRoom := by decide
  txidxLe := by decide
  dataRoom := by decide
  scIndex := by decide
  sentIndex := by decide
  brkIff := by decide
  dirIff := by decide
  tmrZero := by decide
  tmrWidth := by decide

/-- The invariant at the last free slot of the receive buffer. -/
theorem inv_receiving : Inv Params.default (rx .receiving 511 [(0, 1), (511, 2)]) where
  txslotWf := rfl
  rxslotWf := rfl
  txshadowWf := rfl
  txOff := by decide
  rxIdle := by decide
  cursorLe := by decide
  receivingRoom := by decide
  txidxLe := by decide
  dataRoom := by decide
  scIndex := by decide
  sentIndex := by decide
  brkIff := by decide
  dirIff := by decide
  tmrZero := by decide
  tmrWidth := by decide

theorem witness_DecodeOfEncode :
    (Instr.write 1023 1023 (List.replicate 1023 3)).wellFormed = true ∧ (Instr.evData 1 [0]).wellFormed = true ∧
    (Instr.setch 255 0).wellFormed = true := by decide +kernel

theorem witness_EncodeOfDecode :
    decode (.cmd 0x500005FF [7]) = .ok (.write 1 511 [7]) ∧ decode (.evt 0xA000 []) = .ok .evBfull := ⟨rfl, rfl⟩

/-- The other rows: the theorems test_decode_start_tx to test_decode_getstat. -/
theorem witness_CommandWordIsItsFields :
    decode (.cmd 0x3FF003FF []) = .ok (.setch 255 1023) ∧ decode (.cmd 0x800FFFFF []) = .ok (.getrng 1023 1023) :=
  ⟨rfl, rfl⟩

theorem witness_CommandTableSelectsCommands :
    ([] : List Byte).length = payloadLength 0x10000001 ∧ 0x10000001#32 &&& 0xFFFFFFFE = 0x10000000 ∧
    ([] : List Byte).length = payloadLength 0x20000000 ∧ 0x20000000#32 &&& 0xFFFFFFFF = 0x20000000 ∧
    ([] : List Byte).length = payloadLength 0x3FF003FF ∧ 0x3FF003FF#32 &&& 0xF00FFC00 = 0x30000000 ∧
    (List.replicate 512 (0 : Byte)).length = payloadLength 0x40000000 ∧ 0x40000000#32 &&& 0xFFFFFFFF = 0x40000000 ∧
    (List.replicate 1023 (0 : Byte)).length = payloadLength 0x500FFFFF ∧ 0x500FFFFF#32 &&& 0xFFF00000 = 0x50000000 ∧
    ([] : List Byte).length = payloadLength 0x60000000 ∧ 0x60000000#32 &&& 0xFFFFFFFF = 0x60000000 ∧
    ([] : List Byte).length = payloadLength 0x700003FF ∧ 0x700003FF#32 &&& 0xFFFFFC00 = 0x70000000 ∧
    ([] : List Byte).length = payloadLength 0x800FFFFF ∧ 0x800FFFFF#32 &&& 0xFFF00000 = 0x80000000 ∧
    ([] : List Byte).length = payloadLength 0x90000000 ∧ 0x90000000#32 &&& 0xFFFFFFFF = 0x90000000 ∧
    ([] : List Byte).length = payloadLength 0xA0000000 ∧ 0xA0000000#32 &&& 0xFFFFFFFF = 0xA0000000 := by
  decide +kernel

theorem witness_CommandRowsAreDisjoint :
    CmdOp.start.selects 0x10000001 = true ∧ ([] : List Byte).length = payloadLength 0x10000001 ∧
    CmdOp.write.selects 0x500FFFFF = true ∧ (List.replicate 1023 (0 : Byte)).length = payloadLength 0x500FFFFF := by
  decide +kernel

theorem witness_PayloadLengthFixedByWord :
    (List.replicate 511 (0 : Byte)).length ≠ payloadLength 0x40000000 ∧
    ([] : List Byte).length ≠ payloadLength 0x50000400 ∧ [(0 : Byte)].length ≠ payloadLength 0x20000000 ∧
    (isCommandWord 0x500FFC00 = true ∧ (List.replicate 1023 (0 : Byte)).length = payloadLength 0x500FFC00) ∧
    (isCommandWord 0x90000000 = true ∧ ([] : List Byte).length = payloadLength 0x90000000) := by decide +kernel

theorem witness_IllegalWordsAnswered :
    [0x00000000#32, 0xB0000000, 0xFFFFFFFF, 0x10000002, 0x30000400, 0x50100000, 0x80100401, 0x70000400, 0x20000001,
      0x40000001, 0x60000001, 0x90000001, 0xA0000001].map isCommandWord = List.replicate 13 false ∧
    ([] : List Byte).length ≠ payloadLength 0x50000400 := by decide

theorem witness_EventTableSelectsEvents :
    [(0 : Byte)].length = (evtLen 0x0001).toNat ∧ 0x0001#16 &&& 0xFC00 = 0x0000 ∧ 1 ≤ (evtLen 0x0001).toNat ∧
    (List.replicate 1023 (0 : Byte)).length = (evtLen 0x03FF).toNat ∧ 0x03FF#16 &&& 0xFC00 = 0x0000 ∧
    ([] : List Byte).length = (evtLen 0x2000).toNat ∧ 0x2000#16 &&& 0xFFFF = 0x2000 ∧
    ([] : List Byte).length = (evtLen 0x4000).toNat ∧ 0x4000#16 &&& 0xFFFF = 0x4000 ∧
    ([] : List Byte).length = (evtLen 0x6000).toNat ∧ 0x6000#16 &&& 0xFFFF = 0x6000 ∧
    ([] : List Byte).length = (evtLen 0x8000).toNat ∧ 0x8000#16 &&& 0xFFFF = 0x8000 ∧
    ([] : List Byte).length = (evtLen 0xA000).toNat ∧ 0xA000#16 &&& 0xFFFF = 0xA000 := by decide +kernel

theorem witness_ReservedDescriptorsDropped :
    [0x0000#16, 0x2001, 0x0401, 0xC000, 0xE000, 0x4400].map isEventWord = List.replicate 6 false := by decide

theorem witness_StepRunsDecodedInstruction :
    ({ State.reset with pending := [.cmd 0x500005FF [7] false, .tick] } : State).pending =
      .cmd 0x500005FF [7] false :: [.tick] ∧
    decode (.cmd 0x500005FF [7]) = .ok (.write 1 511 [7]) ∧
    ({ State.reset with pending := [.evt 0x2000 []] } : State).pending = .evt 0x2000 [] :: [] ∧
    decode (.evt 0x2000 []) = .ok .evBreak := ⟨rfl, rfl, rfl, rfl⟩

theorem witness_StepServesOtherLabels :
    (∀ i, decode (.cmd 0 []) ≠ .ok i) ∧ (∀ i, decode (.evt 0xE000 []) ≠ .ok i) ∧
    [Label.cmd 0 [] true, .evt 0xE000 [], .tick, .txReady, .txDone false, .reset, .internal].all (fun l =>
      ({ State.reset with pending := [l, .tick] } : State).pending == l :: [.tick]) = true ∧
    State.reset.pending = [] :=
  ⟨fun _ h => (by cases h), fun _ h => (by cases h), by decide, rfl⟩

theorem witness_ResetStateValues :
    State.reset = State.reset ∧ (∃ t, deliver Params.default .reset (tx .brk 0 250) = .next t) ∧ 0 < 512 ∧ 511 < 512 ∧
    (∀ w payload ok, Label.evt 1 [9] ≠ .cmd w payload ok) ∧ Label.evt 1 [9] ≠ .reset :=
  ⟨rfl, ⟨_, rfl⟩, by decide, by decide, by simp, by simp⟩

theorem witness_InvariantHoldsAtReset :
    Params.default.legal = true ∧ shortest.legal = true ∧ longest.legal = true := by decide +kernel

theorem witness_InvariantKeptByEveryStep :
    Params.default.legal = true ∧ Inv Params.default { tx .brk 0 250 with pending := [.tick] } ∧
    stepWith Params.default { tx .brk 0 250 with pending := [.tick] } = .next (tx .brk 0 249) ∧
    Inv Config.params State.reset ∧ step State.reset = .next State.reset :=
  ⟨by decide, { inv_break with }, rfl, inv_reset_params, rfl⟩

theorem witness_NoTransitionStops : Params.default.legal = true ∧ Inv Params.default (rx .receiving 511 [(0, 1), (511, 2)]) :=
  ⟨by decide, inv_receiving⟩

theorem witness_FaultsOnlyBeyondTheSlots :
    deliver Params.default (.evt 0x0001 [9]) (rx .receiving 513 []) = .fault .slotIndexOutOfRange ∧
    deliver Params.default .txReady (tx .data 512 0) = .fault .slotIndexOutOfRange ∧
    (tx .data 512 0).txstate = .data ∧ 511 < (tx .data 512 0).txidx.toNat ∧
    (Instr.evData 1 [9]).wellFormed = true ∧ (rx .receiving 513 []).mode = .receive ∧
    (rx .receiving 513 []).dstate = .receiving ∧ 512 < (rx .receiving 513 []).cursor.toNat :=
  ⟨rfl, rfl, rfl, by decide, rfl, rfl, rfl, by decide⟩

theorem witness_IllegalInstantiationRefused :
    { Params.default with tmrW := 13, tGap := 0 }.tmrW < 14 ∧ { Params.default with tBreak := 87 }.tBreak < 88 ∧
    2 ^ Params.default.tmrW ≤ { Params.default with tBreak := 65536 }.tBreak ∧
    { Params.default with tMab := 11 }.tMab < 12 ∧ 2 ^ Params.default.tmrW ≤ { Params.default with tMab := 65536 }.tMab ∧
    2 ^ Params.default.tmrW ≤ { Params.default with tGap := 65536 }.tGap ∧
    (14 ≤ longest.tmrW ∧ 88 ≤ longest.tBreak ∧ longest.tBreak < 2 ^ longest.tmrW ∧ 12 ≤ longest.tMab ∧
      longest.tMab < 2 ^ longest.tmrW ∧ longest.tGap < 2 ^ longest.tmrW) := by decide +kernel

theorem witness_RangeChecksDoNotWrap :
    1 ≤ (1 : Field).toNat ∧ 1 ≤ (1023 : Field).toNat ∧ addressOk 1 = true ∧ addressOk 512 = true ∧
    offsetOk 1023 1023 = false ∧ rangeOk 1023 1023 = false := by decide

/-- 512 + 1 fails, 512 + 0 and 511 + 1 and 0 + 512 fit. -/
theorem witness_WriteStoresItsRun :
    (wordOp 0x50100000 = 0x5 ∧ wordVal 0x50100000 ≠ 0) ∧
    ([7] : List Byte).length = (1 : Field).toNat ∧ State.reset.txslot.wf = true ∧
    (512 : Field).toNat + (1 : Field).toNat > 512 ∧ (511 : Field).toNat + (1 : Field).toNat ≤ 512 ∧
    ([] : List Byte).length = (0 : Field).toNat ∧ (512 : Field).toNat + (0 : Field).toNat ≤ 512 ∧
    (List.replicate 512 (0 : Byte)).length = (512 : Field).toNat ∧ (0 : Field).toNat + (512 : Field).toNat ≤ 512 := by
  decide +kernel

theorem witness_SetchStoresOneSlot :
    (wordOp 0x30000400 = 0x3 ∧ wordB 0x30000400 ≠ 0) ∧ ({ State.reset with txslot := [(511, 10)] } : State).txslot.wf = true ∧
    (0 : Field).toNat < 1 ∧ (513 : Field).toNat > 512 ∧ (1 ≤ (1 : Field).toNat ∧ (1 : Field).toNat ≤ 512) ∧
    (1 ≤ (512 : Field).toNat ∧ (512 : Field).toNat ≤ 512) := by decide

theorem witness_SetuniReplacesTheUniverse :
    (wordOp 0x40000001 = 0x4 ∧ (0x40000001#32).extractLsb' 0 28 ≠ 0) ∧
    (wordOp 0x40000000 = 0x4 ∧ (List.replicate 511 (0 : Byte)).length ≠ 512) ∧
    (List.replicate 512 (255 : Byte)).length = 512 ∧ State.reset.txslot.wf = true := by decide +kernel

theorem witness_GetuniReturnsTheUniverse :
    wordOp 0x60000001 = 0x6 ∧ (0x60000001#32).extractLsb' 0 28 ≠ 0 := by decide

theorem witness_GetrngReturnsItsRun :
    (wordOp 0x80100401 = 0x8 ∧ wordVal 0x80100401 ≠ 0) ∧
    (0 : Field).toNat < 1 ∧ (512 : Field).toNat + (2 : Field).toNat - 1 > 512 ∧
    (1 ≤ (512 : Field).toNat ∧ 1 ≤ (1 : Field).toNat ∧ (512 : Field).toNat + (1 : Field).toNat - 1 ≤ 512) ∧
    (1 ≤ (1 : Field).toNat ∧ 1 ≤ (512 : Field).toNat ∧ (1 : Field).toNat + (512 : Field).toNat - 1 ≤ 512) := by decide

theorem witness_GetchReturnsItsSlot :
    (wordOp 0x70000400 = 0x7 ∧ (0x70000400#32).extractLsb' 10 18 ≠ 0) ∧ (0 : Field).toNat < 1 ∧
    (513 : Field).toNat > 512 ∧ (1 ≤ (1 : Field).toNat ∧ (1 : Field).toNat ≤ 512) ∧
    (1 ≤ (512 : Field).toNat ∧ (512 : Field).toNat ≤ 512) := by decide

theorem witness_AliasesAgree :
    1 ≤ (1 : Field).toNat ∧ 1 ≤ (1023 : Field).toNat ∧ (List.replicate 512 (1 : Byte)).length = 512 := by decide +kernel

theorem witness_OutOfRangeIsANoOp :
    (Instr.getrng 2 512).wellFormed = true ∧ outOfRange (.getrng 2 512) = true ∧
    (Instr.getrng 1 512).wellFormed = true ∧ outOfRange (.getrng 1 512) = false ∧
    completes (exec (.getrng 1 512) State.reset) = true := by decide

theorem witness_ReadsArePureWritesIdempotent :
    exec (.getch 1) State.reset = .next { State.reset with trace := [.rsp .ok [0]] } ∧
    exec (.getch 1) { State.reset with trace := [.rsp .ok [0]] } =
      .next { State.reset with trace := [.rsp .ok [0], .rsp .ok [0]] } ∧
    State.reset.txslot.wf = true ∧
    exec (.setch 9 1) State.reset = .next { State.reset with txslot := [(0, 9)], trace := [.rsp .ok []] } ∧
    exec (.setch 9 1) { State.reset with txslot := [(0, 9)], trace := [.rsp .ok []] } =
      .next { State.reset with txslot := [(0, 9)], trace := [.rsp .ok [], .rsp .ok []] } ∧
    deliver Params.default .tick State.reset = .next State.reset := ⟨rfl, rfl, rfl, rfl, rfl, rfl⟩

/-- A transition that changes each of the three buffers. -/
theorem witness_BufferOwnership :
    sendAfter (.cmd 0x30A00001 [] true) State.reset [0] = some ([10], [.rsp .ok []]) ∧ State.reset.txslot.read 0 ≠ 10 ∧
    recvAfter (.evt 1 [9]) (rx .receiving 0 []) [0] = some [9] ∧ (rx .receiving 0 []).rxslot.read 0 ≠ 9 ∧
    deliver Params.default .internal { tx .mab 0 0 with txslot := [(0, 1)] } =
      .next { tx .sc 0 0 with txslot := [(0, 1)], txshadow := [(0, 1)] } :=
  ⟨by decide, by decide, by decide, by decide, rfl⟩

theorem witness_SendBufferCannotBeRead : completes (exec (.write 1 0 [7]) State.reset) = true := by decide

theorem witness_LineIgnoresReceiveBuffer :
    (∀ w payload ok, Label.txReady ≠ .cmd w payload ok) ∧ completes (deliver Params.default .txReady (tx .data 511 0)) = true ∧
    (∀ w payload ok, Label.evt 1 [9] ≠ .cmd w payload ok) ∧
    completes (deliver Params.default (.evt 1 [9]) (rx .receiving 511 [])) = true :=
  ⟨by simp, by decide, by simp, by decide⟩

theorem witness_StartInstallsOneWorker :
    (wordOp 0x10000002 = 0x1 ∧ (0x10000002#32).extractLsb' 1 27 ≠ 0) ∧ State.reset.drvOk = true ∧
    ({ tx .brk 0 150 with drvOk := false } : State).drvOk = false := by decide

theorem witness_StopStopsTheWorker : wordOp 0x20000001 = 0x2 ∧ (0x20000001#32).extractLsb' 0 28 ≠ 0 := by decide

theorem witness_FlushOnlyAsksTheLink : wordOp 0x90000001 = 0x9 ∧ (0x90000001#32).extractLsb' 0 28 ≠ 0 := by decide

theorem witness_GetstatReportsModeAndDecoder :
    (wordOp 0xA0000001 = 0xA ∧ (0xA0000001#32).extractLsb' 0 28 ≠ 0) ∧
    (Inv Params.default State.reset ∧ State.reset.mode = .stopped) ∧
    (Inv Params.default (tx .brk 0 250) ∧ (tx .brk 0 250).mode = .transmit) ∧
    (Inv Params.default (rx .receiving 511 [(0, 1), (511, 2)]) ∧ (rx .receiving 511 [(0, 1), (511, 2)]).mode = .receive) :=
  ⟨by decide, ⟨inv_reset, rfl⟩, ⟨inv_break, rfl⟩, ⟨inv_receiving, rfl⟩⟩

/-- Every status a response can have, and a transition with none. -/
theorem witness_EveryCommandAnsweredOnce :
    completes (deliver Params.default (.cmd 0 [] true) State.reset) = true ∧
    completes (deliver Params.default (.cmd 0x70000000 [] true) State.reset) = true ∧
    completes (deliver Params.default (.cmd 0x10000000 [] false) State.reset) = true ∧
    completes (deliver Params.default (.cmd 0x80000001 [] true) State.reset) = true ∧
    completes (deliver Params.default .tick State.reset) = true ∧
    (∀ w payload ok, Label.tick ≠ .cmd w payload ok) := ⟨by decide, by decide, by decide, by decide, by decide, by simp⟩

theorem witness_DoneStartsBreakOrGap :
    (tx .waitIdle 0 0).txstate = .waitIdle ∧ (tx .flush 512 0).txstate = .flush ∧
    (State.reset.txstate ≠ .waitIdle ∧ State.reset.txstate ≠ .flush) := by decide

theorem witness_TickCountsDown :
    ((tx .brk 0 1).txstate = .brk ∧ 0 < (tx .brk 0 1).tmr) ∧ ((tx .mab 0 65535).txstate = .mab ∧ 0 < (tx .mab 0 65535).tmr) ∧
    ((tx .gap 512 1).txstate = .gap ∧ 0 < (tx .gap 512 1).tmr) ∧ (tx .brk 0 0).tmr = 0 ∧
    ((tx .sc 0 5).txstate ≠ .brk ∧ (tx .sc 0 5).txstate ≠ .mab ∧ (tx .sc 0 5).txstate ≠ .gap) ∧
    (Inv Params.default (rx .receiving 511 [(0, 1), (511, 2)]) ∧ (rx .receiving 511 [(0, 1), (511, 2)]).mode ≠ .transmit) :=
  ⟨by decide, by decide, by decide, by decide, by decide, inv_receiving, by decide⟩

theorem witness_ExpiryStepsAdvanceTheCycle :
    ((tx .brk 0 0).txstate = .brk ∧ (tx .brk 0 0).tmr = 0) ∧ ((tx .mab 0 0).txstate = .mab ∧ (tx .mab 0 0).tmr = 0) ∧
    ((tx .gap 512 0).txstate = .gap ∧ (tx .gap 512 0).tmr = 0) := by decide

theorem witness_UnexpiredSlotChangesNothing :
    0 < (tx .brk 0 1).tmr ∧ 0 < (tx .mab 0 1).tmr ∧ 0 < (tx .gap 512 1).tmr ∧
    (State.reset.txstate ≠ .brk ∧ State.reset.txstate ≠ .mab ∧ State.reset.txstate ≠ .gap) := by decide

theorem witness_ReadyHandsOverTheByteOffered :
    (tx .sc 0 0).txstate = .sc ∧ ((tx .data 511 0).txstate = .data ∧ (tx .data 511 0).txidx.toNat ≤ 511) ∧
    ((tx .data 0 0).txstate = .data ∧ (tx .data 0 0).txidx.toNat ≤ 511) ∧
    ((tx .flush 512 0).txstate ≠ .sc ∧ (tx .flush 512 0).txstate ≠ .data) := by decide

theorem witness_CycleOrderIsFixed :
    Label.txReady.keepsSession = true ∧ deliver Params.default .txReady (tx .flush 512 0) = .next (tx .flush 512 0) ∧
    (Label.cmd 0x30A00001 [] true).keepsSession = true ∧
    completes (deliver Params.default (.cmd 0x30A00001 [] true) (tx .brk 0 1)) = true := ⟨rfl, rfl, rfl, rfl⟩

theorem witness_OneCycleOutputTrace : (tx .waitIdle 0 0).txstate = .waitIdle := rfl

/-- From the snapshot point, with a write to the send buffer in between, to TX_FLUSH. -/
theorem witness_FrameCarriesTheSnapshot :
    (tx .mab 0 0).txstate = .mab ∧ (tx .mab 0 0).tmr = 0 ∧
    (∀ l ∈ Label.txReady :: Label.cmd 0x30A00001 [] true :: List.replicate 512 .txReady,
      l.keepsSession = true ∧ l ≠ .internal) ∧
    ∃ t, runLabels Params.default
        (.internal :: .txReady :: .cmd 0x30A00001 [] true :: List.replicate 512 .txReady) (tx .mab 0 0) = .next t ∧
      t.txstate = .flush := by
  refine ⟨rfl, rfl, fun l hl => ?_, ?_⟩
  · simp only [List.mem_cons, List.mem_replicate] at hl
    rcases hl with rfl | rfl | ⟨_, rfl⟩ <;> decide
  · have e : runLabels Params.default [.internal, .txReady, .cmd 0x30A00001 [] true] (tx .mab 0 0) =
        .next { tx .data 0 0 with txslot := [(0, 10)], trace := [.txByte 0, .rsp .ok []] } := rfl
    have h := runLabels_append Params.default [.internal, .txReady, .cmd 0x30A00001 [] true]
      (List.replicate 512 .txReady) (tx .mab 0 0)
    rw [e] at h
    dsimp only at h
    rw [runLabels_readies Params.default rfl (by decide) (by decide)] at h
    exact ⟨_, h, rfl⟩

/-- The whole break at its default length, the whole mark at its least, and a gap of 0 Ticks. -/
theorem witness_TimedStatesLastTheirTicks :
    (∀ n, ∀ l ∈ List.replicate n Label.tick ++ [.internal], l.keepsSession = true) ∧
    (∃ t, runLabels Params.default (.txDone true :: (List.replicate 250 .tick ++ [.internal])) (tx .waitIdle 0 0) =
      .next t ∧ t.txstate ≠ .brk) ∧
    (∃ t, runLabels shortest (.internal :: (List.replicate 12 .tick ++ [.internal])) (tx .brk 0 0) = .next t ∧
      t.txstate ≠ .mab) ∧
    (∃ t, runLabels shortest (.txDone true :: (List.replicate 0 .tick ++ [.internal])) (tx .flush 512 0) = .next t ∧
      t.txstate ≠ .gap) ∧
    shortest.legal = true := by
  refine ⟨fun n l hl => ?_, ?_, ⟨_, rfl, by decide⟩, ⟨_, rfl, by decide⟩, by decide⟩
  · simp only [List.mem_append, List.mem_replicate, List.mem_singleton] at hl
    rcases hl with ⟨_, rfl⟩ | rfl <;> rfl
  · have e : deliver Params.default (.txDone true) (tx .waitIdle 0 0) =
        .next { tx .brk 0 250 with trace := [.brkOn] } := rfl
    simp only [runLabels, e]
    rw [runLabels_append, runLabels_ticks Params.default rfl (by decide)]
    exact ⟨_, rfl, by decide⟩

theorem witness_StalledLinkChangesNothing :
    ([Label.tick, .txDone true, .cmd 0x30A00001 [] true].all Label.keepsSession = true ∧
      (∀ l ∈ [Label.tick, .txDone true, .cmd 0x30A00001 [] true], l ≠ .txReady) ∧ (tx .data 100 0).txstate = .data ∧
      completes (runLabels Params.default [.tick, .txDone true, .cmd 0x30A00001 [] true] (tx .data 100 0)) = true) ∧
    ((tx .sc 0 0).txstate = .sc ∧ (tx .sc 0 0).mode = .transmit ∧
      completes (runLabels Params.default [.tick, .txDone true, .cmd 0x30A00001 [] true] (tx .sc 0 0)) = true) ∧
    ((∀ l ∈ [Label.tick, .txReady], ∀ ok, l ≠ .txDone ok) ∧ (tx .flush 512 0).txstate = .flush ∧
      (tx .flush 512 0).mode = .transmit ∧ (tx .waitIdle 0 0).txstate = .waitIdle ∧
      completes (runLabels Params.default [.tick, .txReady] (tx .waitIdle 0 0)) = true ∧
      (∀ l ∈ [Label.tick, .txReady], ∀ w payload ok, l ≠ .cmd w payload ok) ∧
      completes (runLabels Params.default [.tick, .txReady] (tx .flush 512 0)) = true) :=
  ⟨⟨by decide, by simp, rfl, rfl⟩, ⟨rfl, rfl, rfl⟩, ⟨by simp, rfl, rfl, rfl, rfl, by simp, rfl⟩⟩

theorem witness_StoppedIgnoresTheLink :
    Inv Params.default State.reset ∧ State.reset.mode = .stopped ∧
    (∀ w payload ok, Label.txReady ≠ .cmd w payload ok) ∧ Label.txReady ≠ .reset ∧
    (Instr.getch 1).wellFormed = true := ⟨inv_reset, rfl, by simp, by simp, rfl⟩

theorem witness_EventsDroppedOutsideReceive : (tx .data 0 0).mode ≠ .receive ∧ State.reset.mode ≠ .receive := by decide

theorem witness_BreakRearmsOrEndsFrame :
    (rx .receiving 200 []).mode = .receive ∧ (rx .receiving 200 []).dstate = .receiving ∧
    (rx .frameDone 512 []).mode = .receive ∧ (rx .frameDone 512 []).dstate ≠ .receiving ∧
    State.reset.mode ≠ .receive := by decide

theorem witness_DataFillsTheReceiveBuffer :
    (Instr.evData 1 [0x00]).wellFormed = true ∧ (rx .idle 0 []).mode = .receive ∧ (rx .idle 0 []).dstate = .idle ∧
    (rx .frameDone 512 []).dstate = .frameDone ∧ (rx .linkError 100 []).dstate = .linkError ∧
    (rx .breakDetected 0 []).dstate = .breakDetected ∧ ([0x17] : List Byte).head? ≠ some 0x00 ∧
    ([0x00] : List Byte).head? = some 0x00 ∧ (rx .breakDetected 0 []).rxslot.wf = true ∧
    (Instr.evData 1023 (List.replicate 1023 0)).wellFormed = true ∧
    (rx .receiving 511 []).dstate = .receiving ∧ (rx .receiving 511 []).cursor.toNat ≤ 511 ∧
    (rx .receiving 0 []).cursor.toNat ≤ 511 ∧ (rx .receiving 511 []).rxslot.wf = true ∧
    State.reset.mode ≠ .receive := by decide +kernel

theorem witness_ConditionErrorsAreLinkFaults :
    (Instr.evFerr = .evFerr ∧ Instr.evPerr = .evPerr ∧ Instr.evOvf = .evOvf ∧ Instr.evBfull = .evBfull) ∧
    ((rx .idle 0 []).mode = .receive ∧ (rx .idle 0 []).dstate = .idle) ∧
    ((rx .receiving 100 []).mode = .receive ∧ (rx .receiving 100 []).dstate ≠ .idle) ∧
    (tx .brk 0 1).mode ≠ .receive := by decide

/-- A slot that changes in each of the two states in which Data is stored. -/
theorem witness_NoZeroFillNoRollback :
    Label.evt 2 [0x00, 5] ≠ .reset ∧ (rx .receiving 510 []).rxslot.wf = true ∧
    deliver Params.default (.evt 2 [0x00, 5]) (rx .receiving 510 []) = .next (rx .frameDone 512 [(511, 5)]) ∧
    Memory.read [(511, 5)] 511 ≠ (rx .receiving 510 []).rxslot.read 511 ∧
    deliver Params.default (.evt 2 [0x00, 5]) (rx .breakDetected 0 []) = .next (rx .receiving 1 [(0, 5)]) ∧
    Memory.read [(0, 5)] 0 ≠ (rx .breakDetected 0 []).rxslot.read 0 :=
  ⟨by simp, rfl, rfl, by decide, rfl, by decide⟩

/-- The split of program P2, with three surplus bytes. -/
theorem witness_ReceivedFrameReadsBack :
    (rx .idle 0 []).mode = .receive ∧ (rx .idle 0 []).dstate ≠ .receiving ∧ (rx .idle 0 []).rxslot.wf = true ∧
    (List.replicate 512 (7 : Byte)).length = 512 ∧
    [(0x00 : Byte) :: List.replicate 99 7, List.replicate 413 7, [9, 9, 9]].flatten =
      0x00 :: (List.replicate 512 7 ++ [9, 9, 9]) ∧
    (∀ b ∈ [(0x00 : Byte) :: List.replicate 99 7, List.replicate 413 7, [9, 9, 9]], 1 ≤ b.length ∧ b.length ≤ 1023) := by
  decide +kernel

theorem witness_ShortFrameCostsTheNext :
    (rx .receiving 200 []).mode = .receive ∧ (rx .receiving 200 []).dstate = .receiving ∧
    (∀ b ∈ [[(0x00 : Byte), 5], List.replicate 1023 7], 1 ≤ b.length ∧ b.length ≤ 1023) := by decide +kernel

theorem witness_ModeChangeKeepsTheData :
    (∃ m, Instr.start .rx = .start m) ∧ Instr.stop = .stop := ⟨⟨_, rfl⟩, rfl⟩

end Sys2Proof.Tests
end

section
/-! PROOFS. What a step does with the label at the head of the schedule, and that steps on a schedule are the labelled
transitions of R6 (00_scope.md section 6). -/

namespace Sys2Proof.Machine

/-! ## One transition: a decoded transaction and one that does not decode -/

theorem deliver_cmd_decoded (p : Params) {w : CmdWord} {payload : List Byte} {i : Instr}
    (h : decode (.cmd w payload) = .ok i) (ok : Bool) (s : State) :
    deliver p (.cmd w payload ok) s = exec i { s with drvOk := ok } := by
  simp only [deliver, deliverCommand, h]

theorem deliver_evt_decoded (p : Params) {e : EvtWord} {b : List Byte} {i : Instr}
    (h : decode (.evt e b) = .ok i) (s : State) : deliver p (.evt e b) s = exec i s := by
  simp only [deliver, deliverEvent, h]

theorem decode_eq_error {x : Transaction} (h : ∀ i, decode x ≠ .ok i) : ∃ err, decode x = .error err := by
  cases hd : decode x with
  | ok i => exact absurd hd (h i)
  | error err => exact ⟨err, rfl⟩

/-- A command that does not decode is answered `IllegalCommand` and changes nothing else (R111). -/
theorem deliver_cmd_undecoded (p : Params) {w : CmdWord} {payload : List Byte}
    (h : ∀ i, decode (.cmd w payload) ≠ .ok i) (ok : Bool) (s : State) :
    deliver p (.cmd w payload ok) s =
      .next { s with drvOk := ok, trace := s.trace ++ [.rsp .illegalCommand []] } := by
  obtain ⟨err, hd⟩ := decode_eq_error h
  simp only [deliver, deliverCommand, hd]
  rfl

/-- An event that does not decode is dropped (R60; log entry 7). -/
theorem deliver_evt_undecoded (p : Params) {e : EvtWord} {b : List Byte}
    (h : ∀ i, decode (.evt e b) ≠ .ok i) (s : State) : deliver p (.evt e b) s = .next s := by
  obtain ⟨err, hd⟩ := decode_eq_error h
  simp only [deliver, deliverEvent, hd, dropEvent]

/-! ## One step -/

theorem stepWith_pending_cons (p : Params) {s : State} {l : Label} {rest : List Label}
    (h : s.pending = l :: rest) : stepWith p s = deliver p l (s.withPending rest) := by
  simp only [stepWith, h, State.withPending]

theorem stepWith_pending_nil (p : Params) {s : State} (h : s.pending = []) :
    stepWith p s = .next (s.internal p) := by
  simp only [stepWith, h]

/-! ## Steps on a schedule -/

/-- As many steps as `ls` is long use up `ls` and leave `rest` pending, as the transitions of `ls` do. The schedule
only rides along (`deliver_withPending`), so one step and one transition stop alike or reach the same state up to what
is pending, from which the next ones go on. -/
theorem runSteps_withPending (p : Params) (ls rest : List Label) (s : State) :
    runSteps p ls.length (s.withPending (ls ++ rest)) = runLabels p ls (s.withPending rest) := by
  induction ls generalizing s with
  | nil => rfl
  | cons l ls ih =>
    have hstep : stepWith p (s.withPending (l :: ls ++ rest)) =
        mapNext (State.withPending (ls ++ rest)) (deliver p l s) :=
      (stepWith_pending_cons p rfl).trans (deliver_withPending p l (ls ++ rest) s)
    simp only [List.length_cons, runSteps, runLabels, hstep, deliver_withPending p l rest s]
    cases deliver p l s with
    | next t => exact ih t
    | fault r => rfl
    | refused r => rfl

/-! ## The obligations -/

/-- Settles O12, by induction on the schedule: no transition reads or writes what is pending. -/
theorem stepsRunTheSchedule : Obligations.StepsRunTheSchedule := by
  unfold Obligations.StepsRunTheSchedule
  exact runSteps_withPending

/-- Settles O10: the step delivers the label at the head, and delivering what decodes is `exec`. -/
theorem stepRunsDecodedInstruction : Obligations.StepRunsDecodedInstruction := by
  unfold Obligations.StepRunsDecodedInstruction
  constructor
  · intro s w payload ok rest i hp hd
    exact (stepWith_pending_cons _ hp).trans (deliver_cmd_decoded _ hd ok _)
  · intro s e b rest i hp hd
    exact (stepWith_pending_cons _ hp).trans (deliver_evt_decoded _ hd _)

/-- Settles O11: the step delivers the label at the head, whatever it is, and is TXSEQ's internal step when there is
none. -/
theorem stepServesOtherLabels : Obligations.StepServesOtherLabels := by
  unfold Obligations.StepServesOtherLabels
  intro p s rest
  refine ⟨?cmd, ?evt, stepWith_pending_cons p, stepWith_pending_cons p, fun _ => stepWith_pending_cons p,
    stepWith_pending_cons p, stepWith_pending_cons p, stepWith_pending_nil p⟩
  case cmd =>
    intro w payload ok hp hd
    exact (stepWith_pending_cons p hp).trans (deliver_cmd_undecoded p hd ok _)
  case evt =>
    intro e b hp hd
    exact (stepWith_pending_cons p hp).trans (deliver_evt_undecoded p hd _)

end Sys2Proof.Machine
end

section
/-! PROOFS. What a command, an event and a label of the transmitter can do to the state: one inversion each
(10_state.md R8, R10, R11; 42_transmitter.md; 43_receiver.md R88; 44_link_controller.md). -/

namespace Sys2Proof.Machine

/-! ## Commands -/

/-- What a command makes of the state: START and STOP begin a new session (R102 to R104); every other command changes
at most the send buffer (R8) and the trace. -/
inductive CommandEffect (s : State) : State → Prop where
  | buffer (m : Memory) (tr : List Output) (hwf : s.txslot.wf = true → m.wf = true) :
      CommandEffect s { s with txslot := m, trace := tr }
  | session (md : Mode) (tr : List Output) :
      CommandEffect s { s with
        mode := md, dir := decide (md = .transmit), txstate := if md = .transmit then .waitIdle else .off
        txidx := 0, tmr := 0, brk := false, dstate := .idle, cursor := 0, trace := tr }

/-- A command that leaves the buffers alone. -/
theorem CommandEffect.output (s : State) (tr : List Output) : CommandEffect s { s with trace := tr } :=
  .buffer s.txslot tr id

theorem execStart_effect (m : StartMode) (s : State) : ∃ t, execStart m s = .next t ∧ CommandEffect s t := by
  unfold execStart
  split <;> rw [State.teardown_eq]
  · exact ⟨_, rfl, .session .stopped _⟩
  · exact ⟨_, rfl, .session .transmit _⟩
  · exact ⟨_, rfl, .session .receive _⟩

theorem execStop_effect (s : State) : ∃ t, execStop s = .next t ∧ CommandEffect s t := by
  unfold execStop
  rw [State.teardown_eq]
  exact ⟨_, rfl, .session .stopped _⟩

theorem execSetch_effect (v : Byte) (a : Field) (s : State) :
    ∃ t, execSetch v a s = .next t ∧ CommandEffect s t := by
  unfold execSetch
  split
  · next h =>
    have hi : slotIndex a < 512 := by
      have := (addressOk_iff a).1 h
      simp only [slotIndex]
      omega
    exact ⟨_, rfl, .buffer _ _ fun hwf => Memory.wf_write v hwf hi⟩
  · exact ⟨_, rfl, .output s _⟩

theorem execSetuni_effect (payload : List Byte) (s : State) :
    ∃ t, execSetuni payload s = .next t ∧ CommandEffect s t := by
  unfold execSetuni
  split
  · next h => exact ⟨_, rfl, .buffer _ _ fun hwf => Memory.wf_writeRun hwf (by rw [h, Nat.zero_add])⟩
  · exact ⟨_, rfl, .output s _⟩

theorem execWrite_effect (l o : Field) (payload : List Byte) (s : State) :
    ∃ t, execWrite l o payload s = .next t ∧ CommandEffect s t := by
  unfold execWrite
  split
  · next hlen =>
    split
    · next h =>
      have hfit := (offsetOk_iff o l).1 h
      exact ⟨_, rfl, .buffer _ _ fun hwf => Memory.wf_writeRun hwf (by omega)⟩
    · exact ⟨_, rfl, .output s _⟩
  · exact ⟨_, rfl, .output s _⟩

theorem execGetch_effect (a : Field) (s : State) : ∃ t, execGetch a s = .next t ∧ CommandEffect s t := by
  unfold execGetch
  split
  · exact ⟨_, rfl, .output s _⟩
  · exact ⟨_, rfl, .output s _⟩

theorem execGetrng_effect (c a : Field) (s : State) : ∃ t, execGetrng c a s = .next t ∧ CommandEffect s t := by
  unfold execGetrng
  split
  · exact ⟨_, rfl, .output s _⟩
  · exact ⟨_, rfl, .output s _⟩

/-- Whatever a command port transaction decodes to completes, with the effect of a command. -/
theorem exec_buildCmd_effect (c : CmdOp) (w : CmdWord) (payload : List Byte) (s : State) :
    ∃ t, exec (buildCmd c w payload) s = .next t ∧ CommandEffect s t := by
  cases c with
  | start => exact execStart_effect _ s
  | stop => exact execStop_effect s
  | setch => exact execSetch_effect _ _ s
  | setuni => exact execSetuni_effect payload s
  | write => exact execWrite_effect _ _ payload s
  | getuni => exact ⟨_, rfl, .output s _⟩
  | getch => exact execGetch_effect _ s
  | getrng => exact execGetrng_effect _ _ s
  | flush => exact ⟨_, rfl, .output s _⟩
  | getstat => exact ⟨_, rfl, .output s _⟩

theorem decode_cmd_eq_buildCmd {w : CmdWord} {payload : List Byte} {i : Instr}
    (h : decode (.cmd w payload) = .ok i) : ∃ c, i = buildCmd c w payload := by
  simp only [decode, decodeCmd] at h
  split at h
  · cases h
  · next c _ =>
    split at h
    · cases h
      exact ⟨c, rfl⟩
    · cases h

/-- Every command transition completes, with the effect of a command; one that does not decode only answers. -/
theorem deliver_cmd_effect (p : Params) (w : CmdWord) (payload : List Byte) (ok : Bool) (s : State) :
    ∃ t, deliver p (.cmd w payload ok) s = .next t ∧ CommandEffect { s with drvOk := ok } t := by
  by_cases h : ∃ i, decode (.cmd w payload) = .ok i
  · obtain ⟨i, hd⟩ := h
    obtain ⟨c, rfl⟩ := decode_cmd_eq_buildCmd hd
    rw [deliver_cmd_decoded p hd]
    exact exec_buildCmd_effect c w payload _
  · exact ⟨_, deliver_cmd_undecoded p (not_exists.1 h) ok s, .output { s with drvOk := ok } _⟩

/-- No command touches the receive buffer or the snapshot (R10, R11). -/
theorem CommandEffect.frame {s t : State} (h : CommandEffect s t) :
    t.rxslot = s.rxslot ∧ t.txshadow = s.txshadow := by
  cases h with
  | buffer => exact ⟨rfl, rfl⟩
  | session => exact ⟨rfl, rfl⟩

/-! ## Events -/

/-- What an event makes of the state. It is dropped; or, in Receive mode, the decoder moves to a state other than
Receiving, with its cursor kept or back at 0; or it consumes bytes, in Receiving from the cursor it has, in
BreakDetected from 0 on (R88 to R96). -/
inductive EventEffect (s : State) : Host.Outcome State Fault Refusal → Prop where
  | dropped : EventEffect s (.next s)
  | moved (c : Field) (d : DState) (tr : List Output) (hm : s.mode = .receive) (hc : c = s.cursor ∨ c = 0)
      (hd : d ≠ .receiving) : EventEffect s (.next { s with cursor := c, dstate := d, trace := tr })
  | continued (r : List Byte) (hm : s.mode = .receive) (hd : s.dstate = .receiving) : EventEffect s (s.consume r)
  | started (r : List Byte) (hm : s.mode = .receive) (hd : s.dstate = .breakDetected) :
      EventEffect s ({ s with cursor := 0, dstate := .receiving }.consume r)

/-- The receive guard drops the event or lets it act in Receive mode. -/
theorem EventEffect.whenReceiving {s : State} {act : Host.Outcome State Fault Refusal}
    (h : s.mode = .receive → EventEffect s act) : EventEffect s (whenReceiving s act) := by
  by_cases hm : s.mode = .receive
  · rw [whenReceiving_acts act hm]
    exact h hm
  · rw [whenReceiving_drops act hm]
    exact .dropped

theorem execEvData_effect (n : Field) (b : List Byte) (s : State) : EventEffect s (execEvData n b s) := by
  refine .whenReceiving fun hm => ?_
  split
  · cases b with
    | nil => exact .dropped
    | cons first rest =>
      cases hd : s.dstate with
      | breakDetected =>
        dsimp only
        split
        · exact .started rest hm hd
        · exact .moved s.cursor .frameDone s.trace hm (.inl rfl) (by decide)
      | receiving => exact .continued (first :: rest) hm hd
      | idle => exact .dropped
      | frameDone => exact .dropped
      | linkError => exact .dropped
  · exact .dropped

theorem execEvBreak_effect (s : State) : EventEffect s (execEvBreak s) := by
  refine .whenReceiving fun hm => ?_
  have hrearm : EventEffect s (.next s.rearm) := .moved 0 .breakDetected _ hm (.inr rfl) (by decide)
  cases s.dstate with
  | receiving => exact .moved s.cursor .frameDone s.trace hm (.inl rfl) (by decide)
  | idle => exact hrearm
  | frameDone => exact hrearm
  | linkError => exact hrearm
  | breakDetected => exact hrearm

/-- The four condition errors are one operation (R92 to R95). -/
theorem linkFault_effect (s : State) : EventEffect s (whenReceiving s (.next s.linkFault)) := by
  refine .whenReceiving fun hm => ?_
  rw [State.linkFault_eq]
  exact .moved s.cursor _ _ hm (.inl rfl) (by split <;> decide)

theorem exec_buildEvt_effect (c : EvtOp) (e : EvtWord) (b : List Byte) (s : State) :
    EventEffect s (exec (buildEvt c e b) s) := by
  cases c with
  | data => exact execEvData_effect _ b s
  | brk => exact execEvBreak_effect s
  | ferr => exact linkFault_effect s
  | perr => exact linkFault_effect s
  | ovf => exact linkFault_effect s
  | bfull => exact linkFault_effect s

theorem decode_evt_eq_buildEvt {e : EvtWord} {b : List Byte} {i : Instr}
    (h : decode (.evt e b) = .ok i) : ∃ c, i = buildEvt c e b := by
  simp only [decode, decodeEvt] at h
  split at h
  · cases h
  · next c _ =>
    split at h
    · cases h
      exact ⟨c, rfl⟩
    · cases h

/-- Every event transition has the effect of an event; one that does not decode is dropped. -/
theorem deliver_evt_effect (p : Params) (e : EvtWord) (b : List Byte) (s : State) :
    EventEffect s (deliver p (.evt e b) s) := by
  by_cases h : ∃ i, decode (.evt e b) = .ok i
  · obtain ⟨i, hd⟩ := h
    obtain ⟨c, rfl⟩ := decode_evt_eq_buildEvt hd
    rw [deliver_evt_decoded p hd]
    exact exec_buildEvt_effect c e b s
  · rw [deliver_evt_undecoded p (not_exists.1 h)]
    exact .dropped

/-- Outside Receive every event is dropped (R88). -/
theorem EventEffect.eq_next_of_not_receive {s : State} {o : Host.Outcome State Fault Refusal} (h : EventEffect s o)
    (hm : s.mode ≠ .receive) : o = .next s := by
  cases h with
  | dropped => rfl
  | moved _ _ _ hr => exact absurd hr hm
  | continued _ hr => exact absurd hr hm
  | started _ hr => exact absurd hr hm

/-- `consume` completes inside the buffer and faults beyond it (R91; log entry 9). -/
theorem State.consume_cases (s : State) (r : List Byte) :
    (s.cursor.toNat ≤ 512 ∧ s.consume r = .next { s with
      rxslot := s.rxslot.writeRun s.cursor.toNat (r.take (512 - s.cursor.toNat))
      cursor := BitVec.ofNat 10 (s.cursor.toNat + min r.length (512 - s.cursor.toNat))
      dstate := if 512 ≤ s.cursor.toNat + r.length then .frameDone else s.dstate }) ∨
    (512 < s.cursor.toNat ∧ s.consume r = .fault .slotIndexOutOfRange) := by
  rcases Nat.lt_or_ge 512 s.cursor.toNat with h | h
  · exact .inr ⟨h, State.consume_fault r h⟩
  · exact .inl ⟨h, State.consume_next r h⟩

/-- `consume` writes the receive buffer, the cursor and the decoder state, and nothing else. -/
theorem State.consume_frame {s t : State} {r : List Byte} (h : s.consume r = .next t) :
    t = { s with rxslot := t.rxslot, cursor := t.cursor, dstate := t.dstate } := by
  rcases s.consume_cases r with ⟨_, e⟩ | ⟨_, e⟩
  · rw [h] at e
    cases e
    rfl
  · rw [h] at e
    cases e

/-- An event is dropped, or it acts in Receive mode on the receive buffer, the decoder and the trace alone. -/
theorem EventEffect.frame {s t : State} (h : EventEffect s (.next t)) :
    t = s ∨ (s.mode = .receive ∧
      t = { s with rxslot := t.rxslot, cursor := t.cursor, dstate := t.dstate, trace := t.trace }) := by
  generalize ho : Host.Outcome.next t = o at h
  cases h with
  | dropped =>
    cases ho
    exact .inl rfl
  | moved _ _ _ hm =>
    cases ho
    exact .inr ⟨hm, rfl⟩
  | continued r hm =>
    have e := State.consume_frame ho.symm
    exact .inr ⟨hm, by rw [e]⟩
  | started r hm =>
    have e := State.consume_frame ho.symm
    exact .inr ⟨hm, by rw [e]⟩

/-! ## The labels of the transmitter -/

/-- `handPayload` completes inside the snapshot and faults beyond it (R80; log entry 9). -/
theorem handPayload_cases (s : State) :
    (s.txidx.toNat < 512 ∧ handPayload s = .next { s with
      trace := s.trace ++ [.txByte (s.txshadow.read s.txidx.toNat)]
      txidx := s.txidx + 1
      txstate := if s.txidx + 1 = 512#10 then .flush else .data }) ∨
    (511 < s.txidx.toNat ∧ handPayload s = .fault .slotIndexOutOfRange) := by
  rcases Nat.lt_or_ge s.txidx.toNat 512 with h | h
  · exact .inl ⟨h, handPayload_next h⟩
  · exact .inr ⟨h, by rw [handPayload, if_neg (Nat.not_lt.2 h)]⟩

/-- `TxReady` touches none of the three slot arrays. -/
theorem txReady_buffers {p : Params} {s t : State} (h : txReady p s = .next t) :
    t.txslot = s.txslot ∧ t.rxslot = s.rxslot ∧ t.txshadow = s.txshadow := by
  rcases txReady_cases p s with ⟨_, e⟩ | ⟨_, e⟩ | ⟨_, _, e⟩
  · rw [h] at e
    cases e
    exact ⟨rfl, rfl, rfl⟩
  · rw [h] at e
    rcases handPayload_cases s with ⟨_, e'⟩ | ⟨_, e'⟩
    · rw [e'] at e
      cases e
      exact ⟨rfl, rfl, rfl⟩
    · rw [e'] at e
      cases e
  · rw [h] at e
    cases e
    exact ⟨rfl, rfl, rfl⟩

/-- `TxDone` touches none of the three slot arrays. -/
theorem State.txDone_buffers (p : Params) (ok : Bool) (s : State) :
    (s.txDone p ok).txslot = s.txslot ∧ (s.txDone p ok).rxslot = s.rxslot ∧
      (s.txDone p ok).txshadow = s.txshadow := by
  rcases s.txDone_cases p ok with ⟨_, e⟩ | ⟨_, e⟩ | ⟨_, _, e⟩ <;> rw [e] <;> exact ⟨rfl, rfl, rfl⟩

/-- An internal step touches no buffer, and the snapshot only at the snapshot point (R78). -/
theorem State.internal_buffers (p : Params) (s : State) :
    (s.internal p).txslot = s.txslot ∧ (s.internal p).rxslot = s.rxslot ∧
      ((s.internal p).txshadow = s.txshadow ∨
        s.txstate = .mab ∧ s.tmr = 0 ∧ (s.internal p).txshadow = s.txslot) := by
  rcases s.internal_cases p with ⟨_, _, e⟩ | ⟨hx, ht, e⟩ | ⟨_, _, e⟩ | ⟨_, e⟩ <;> rw [e]
  · exact ⟨rfl, rfl, .inl rfl⟩
  · exact ⟨rfl, rfl, .inr ⟨hx, ht, rfl⟩⟩
  · exact ⟨rfl, rfl, .inl rfl⟩
  · exact ⟨rfl, rfl, .inl rfl⟩

end Sys2Proof.Machine
end

section
/-! PROOFS. The invariant of R23 holds at reset and every step keeps it (10_state.md section 3). -/

namespace Sys2Proof.Machine

/-! ## Fields the invariant does not speak of -/

/-- The trace, the schedule and the level of `drv_ok_i` are no part of the invariant. -/
theorem Inv.outside {p : Params} {s : State} (h : Inv p s) (ls : List Label) (ok : Bool) (tr : List Output) :
    Inv p { s with pending := ls, drvOk := ok, trace := tr } :=
  { h with }

/-! ## Reset -/

/-- The reset values meet the invariant under any parameters (R32). -/
theorem State.reset_inv (p : Params) : Inv p State.reset where
  txslotWf := rfl
  rxslotWf := rfl
  txshadowWf := rfl
  txOff := by decide
  rxIdle := by decide
  cursorLe := by decide
  receivingRoom := by decide
  txidxLe := by decide
  dataRoom := by decide
  scIndex := by decide
  sentIndex := by decide
  brkIff := by decide
  dirIff := by decide
  tmrZero := by decide
  tmrWidth := Nat.two_pow_pos _

theorem State.applyReset_inv (p : Params) (s : State) : Inv p s.applyReset := by
  rw [State.applyReset_eq]
  exact (State.reset_inv p).outside s.pending s.drvOk _

/-! ## Commands -/

theorem CommandEffect.inv {p : Params} {s t : State} (h : Inv p s) (he : CommandEffect s t) : Inv p t := by
  cases he with
  | buffer m tr hwf => exact { h with txslotWf := hwf h.txslotWf }
  | session md tr =>
    exact { txslotWf := h.txslotWf, rxslotWf := h.rxslotWf, txshadowWf := h.txshadowWf
            txOff := by cases md <;> simp
            rxIdle := fun _ => ⟨rfl, rfl⟩
            cursorLe := by simp
            receivingRoom := by simp
            txidxLe := by simp
            dataRoom := by simp
            scIndex := fun _ => rfl
            sentIndex := by cases md <;> simp
            brkIff := by cases md <;> simp
            dirIff := by simp
            tmrZero := fun _ => rfl
            tmrWidth := Nat.two_pow_pos _ }

/-! ## Events -/

/-- In Receive mode the decoder may move to any state but Receiving, with its cursor kept or back at 0. -/
theorem Inv.move {p : Params} {s : State} (h : Inv p s) (hm : s.mode = .receive) {c : Field} {d : DState}
    (hc : c = s.cursor ∨ c = 0) (hd : d ≠ .receiving) (tr : List Output) :
    Inv p { s with cursor := c, dstate := d, trace := tr } :=
  { h with
    rxIdle := fun hn => absurd hm hn
    cursorLe := by
      rcases hc with rfl | rfl
      · exact h.cursorLe
      · simp
    receivingRoom := fun hr => absurd hr hd }

/-- The start of a frame: Receiving with the cursor at 0. -/
theorem Inv.startFrame {p : Params} {s : State} (h : Inv p s) (hm : s.mode = .receive) :
    Inv p { s with cursor := 0, dstate := .receiving } :=
  { h with rxIdle := fun hn => absurd hm hn, cursorLe := by simp, receivingRoom := by simp }

/-- Consuming bytes keeps the invariant: the cursor stops at 512, and the decoder leaves Receiving when it does. -/
theorem Inv.consume {p : Params} {s t : State} (h : Inv p s) (hm : s.mode = .receive) {r : List Byte}
    (ht : s.consume r = .next t) : Inv p t := by
  have hle := h.cursorLe
  have hcur : (BitVec.ofNat 10 (s.cursor.toNat + min r.length (512 - s.cursor.toNat))).toNat =
      s.cursor.toNat + min r.length (512 - s.cursor.toNat) := toNat_ofNat_cursor (by omega)
  rw [State.consume_next r hle] at ht
  cases ht
  refine { h with
    rxslotWf := Memory.wf_consume h.rxslotWf _ r hle
    rxIdle := fun hn => absurd hm hn
    cursorLe := ?_
    receivingRoom := fun hd => ?_ }
  · dsimp only
    omega
  · dsimp only at hd ⊢
    split at hd
    · cases hd
    · omega

theorem EventEffect.inv {p : Params} {s t : State} (h : Inv p s) (he : EventEffect s (.next t)) : Inv p t := by
  generalize ho : Host.Outcome.next t = o at he
  cases he with
  | dropped =>
    cases ho
    exact h
  | moved c d tr hm hc hd =>
    cases ho
    exact h.move hm hc hd tr
  | continued r hm => exact h.consume hm ho.symm
  | started r hm => exact (h.startFrame hm).consume hm ho.symm

/-! ## The transmitter -/

/-- What the invariant says of the registers of a running transmitter (R23 (6), (7) and (9), R19, R20). In a given
state of the cycle most of them hold by a premise that is false there. -/
structure CycleRegs (p : Params) (x : TxState) (idx : Field) (n : Nat) (b : Bool) : Prop where
  running : x ≠ .off := by simp
  idxLe : idx.toNat ≤ 512
  dataRoom : x = .data → idx.toNat ≤ 511 := by simp
  scIndex : x = .sc → idx = 0 := by simp
  sentIndex : x = .flush ∨ x = .gap → idx = 512 := by simp
  brkIff : b = true ↔ x = .brk := by simp
  tmrZero : x.timed = false → n = 0 := by simp [TxState.timed]
  tmrWidth : n < 2 ^ p.tmrW

/-- A step of the cycle: a running transmitter takes new register values, and the snapshot may be replaced. -/
theorem Inv.cycle {p : Params} {s : State} (h : Inv p s) (hrun : s.txstate ≠ .off) {x : TxState} {idx : Field}
    {n : Nat} {b : Bool} (hr : CycleRegs p x idx n b) {m : Memory} (hwf : m.wf = true) (tr : List Output) :
    Inv p { s with txstate := x, txidx := idx, tmr := n, brk := b, txshadow := m, trace := tr } :=
  { h with
    txshadowWf := hwf
    txOff := ⟨fun hx => absurd hx hr.running, fun hm => absurd (h.txOff.2 hm) hrun⟩
    txidxLe := hr.idxLe
    dataRoom := hr.dataRoom
    scIndex := hr.scIndex
    sentIndex := hr.sentIndex
    brkIff := hr.brkIff
    tmrZero := hr.tmrZero
    tmrWidth := hr.tmrWidth }

theorem Inv.tick {p : Params} {s : State} (h : Inv p s) : Inv p s.tick := by
  have hw := h.tmrWidth
  rw [State.tick_eq]
  refine { h with tmrZero := fun ht => ?_, tmrWidth := ?_ }
  · dsimp only at ht ⊢
    rw [ht, if_neg Bool.false_ne_true]
    exact h.tmrZero ht
  · dsimp only
    split <;> omega

section Cycle
variable {p : Params} {s : State}

/-- Outside the break `brk_o` is low. -/
theorem Inv.brk_eq_false (h : Inv p s) (hx : s.txstate ≠ .brk) : s.brk = false :=
  Bool.eq_false_iff.2 fun hb => hx (h.brkIff.1 hb)

/-- R75: the break lasts `T_BREAK_US` Ticks, which fit `TMR` by the bounds of R5. -/
theorem Inv.assertBreak (hp : p.legal = true) (h : Inv p s) (hx : s.txstate = .waitIdle) :
    Inv p (s.assertBreak p) := by
  obtain ⟨-, -, hbreak, -, -, -⟩ := (Params.legal_iff p).1 hp
  have hr : CycleRegs p .brk s.txidx p.tBreak true := { idxLe := h.txidxLe, tmrWidth := hbreak }
  exact h.cycle (by simp [hx]) hr h.txshadowWf _

/-- R77. -/
theorem Inv.endBreak (hp : p.legal = true) (h : Inv p s) (hx : s.txstate = .brk) : Inv p (s.endBreak p) := by
  obtain ⟨-, -, -, -, hmab, -⟩ := (Params.legal_iff p).1 hp
  have hr : CycleRegs p .mab s.txidx p.tMab false := { idxLe := h.txidxLe, tmrWidth := hmab }
  exact h.cycle (by simp [hx]) hr h.txshadowWf _

/-- R78: the snapshot is a copy of a canonical array, and the index starts at 0. -/
theorem Inv.takeSnapshot (h : Inv p s) (hx : s.txstate = .mab) (ht : s.tmr = 0) : Inv p s.takeSnapshot := by
  have hbrk := h.brk_eq_false (by simp [hx])
  have hr : CycleRegs p .sc 0 s.tmr s.brk :=
    { idxLe := by simp, scIndex := fun _ => rfl, brkIff := by simp [hbrk], tmrZero := fun _ => ht
      tmrWidth := h.tmrWidth }
  exact h.cycle (by simp [hx]) hr h.txslotWf _

/-- R79: TX_DATA is entered with the index at 0. -/
theorem Inv.handStartCode (h : Inv p s) (hx : s.txstate = .sc) : Inv p (s.handStartCode p) := by
  have hbrk := h.brk_eq_false (by simp [hx])
  have hr : CycleRegs p .data s.txidx s.tmr s.brk :=
    { idxLe := h.txidxLe, dataRoom := fun _ => by simp [h.scIndex hx], brkIff := by simp [hbrk]
      tmrZero := fun _ => h.tmrZero (by simp [hx, TxState.timed]), tmrWidth := h.tmrWidth }
  exact h.cycle (by simp [hx]) hr h.txshadowWf _

/-- R80: the index goes up by one, and reaching 512 it leaves TX_DATA. -/
theorem Inv.handPayload {t : State} (h : Inv p s) (hx : s.txstate = .data) (ht : handPayload s = .next t) :
    Inv p t := by
  have hbrk := h.brk_eq_false (by simp [hx])
  have htmr : s.tmr = 0 := h.tmrZero (by simp [hx, TxState.timed])
  have hroom := h.dataRoom hx
  have hidx : (s.txidx + 1).toNat = s.txidx.toNat + 1 := BitVec.toNat_add_of_lt (by simp; omega)
  rw [handPayload_next (by omega)] at ht
  cases ht
  by_cases hlast : s.txidx + 1 = 512#10
  · have hr : CycleRegs p .flush (s.txidx + 1) s.tmr s.brk :=
      { idxLe := by omega, sentIndex := fun _ => hlast, brkIff := by simp [hbrk], tmrZero := fun _ => htmr
        tmrWidth := h.tmrWidth }
    rw [if_pos hlast]
    exact h.cycle (by simp [hx]) hr h.txshadowWf _
  · have hne : (s.txidx + 1).toNat ≠ 512 := fun e => hlast (BitVec.eq_of_toNat_eq e)
    have hr : CycleRegs p .data (s.txidx + 1) s.tmr s.brk :=
      { idxLe := by omega, dataRoom := fun _ => by omega, brkIff := by simp [hbrk], tmrZero := fun _ => htmr
        tmrWidth := h.tmrWidth }
    rw [if_neg hlast]
    exact h.cycle (by simp [hx]) hr h.txshadowWf _

/-- R81. -/
theorem Inv.startGap (hp : p.legal = true) (h : Inv p s) (hx : s.txstate = .flush) : Inv p (s.startGap p) := by
  obtain ⟨-, -, -, -, -, hgap⟩ := (Params.legal_iff p).1 hp
  have hbrk := h.brk_eq_false (by simp [hx])
  have hr : CycleRegs p .gap s.txidx p.tGap s.brk :=
    { idxLe := h.txidxLe, sentIndex := fun _ => h.sentIndex (.inl hx), brkIff := by simp [hbrk], tmrWidth := hgap }
  exact h.cycle (by simp [hx]) hr h.txshadowWf _

/-- R82. -/
theorem Inv.endGap (h : Inv p s) (hx : s.txstate = .gap) (ht : s.tmr = 0) : Inv p s.endGap := by
  have hbrk := h.brk_eq_false (by simp [hx])
  have hr : CycleRegs p .waitIdle s.txidx s.tmr s.brk :=
    { idxLe := h.txidxLe, brkIff := by simp [hbrk], tmrZero := fun _ => ht, tmrWidth := h.tmrWidth }
  exact h.cycle (by simp [hx]) hr h.txshadowWf _

theorem Inv.txReady {t : State} (h : Inv p s) (ht : txReady p s = .next t) : Inv p t := by
  rcases txReady_cases p s with ⟨hx, e⟩ | ⟨hx, e⟩ | ⟨-, -, e⟩ <;> rw [e] at ht
  · cases ht
    exact h.handStartCode hx
  · exact h.handPayload hx ht
  · cases ht
    exact h

theorem Inv.txDone (hp : p.legal = true) (h : Inv p s) (ok : Bool) : Inv p (s.txDone p ok) := by
  rcases s.txDone_cases p ok with ⟨hx, e⟩ | ⟨hx, e⟩ | ⟨-, -, e⟩ <;> rw [e]
  · exact h.assertBreak hp hx
  · exact h.startGap hp hx
  · exact h

theorem Inv.internal (hp : p.legal = true) (h : Inv p s) : Inv p (s.internal p) := by
  rcases s.internal_cases p with ⟨hx, -, e⟩ | ⟨hx, ht, e⟩ | ⟨hx, ht, e⟩ | ⟨-, e⟩ <;> rw [e]
  · exact h.endBreak hp hx
  · exact h.takeSnapshot hx ht
  · exact h.endGap hx ht
  · exact h

/-! ## Every transition and every step -/

theorem Inv.deliver {t : State} (hp : p.legal = true) (h : Inv p s) {l : Label} (ht : deliver p l s = .next t) :
    Inv p t := by
  cases l with
  | cmd w payload ok =>
    obtain ⟨t', e, he⟩ := deliver_cmd_effect p w payload ok s
    rw [e] at ht
    cases ht
    exact he.inv (h.outside s.pending ok s.trace)
  | evt e b =>
    have he := deliver_evt_effect p e b s
    rw [ht] at he
    exact he.inv h
  | tick =>
    cases ht
    exact h.tick
  | txReady => exact h.txReady ht
  | txDone ok =>
    cases ht
    exact h.txDone hp ok
  | reset =>
    cases ht
    exact s.applyReset_inv p
  | internal =>
    cases ht
    exact h.internal hp

theorem Inv.stepWith {t : State} (hp : p.legal = true) (h : Inv p s) (ht : stepWith p s = .next t) : Inv p t := by
  cases hl : s.pending with
  | nil =>
    rw [stepWith_pending_nil p hl] at ht
    cases ht
    exact h.internal hp
  | cons l rest =>
    rw [stepWith_pending_cons p hl] at ht
    exact (h.outside rest s.drvOk s.trace).deliver hp ht

end Cycle

/-! ## The obligations -/

/-- Settles O15: the reset values meet the invariant under any parameters. -/
theorem invariantHoldsAtReset : Obligations.InvariantHoldsAtReset := by
  unfold Obligations.InvariantHoldsAtReset
  exact ⟨fun p _ => State.reset_inv p, State.reset_inv Config.params⟩

/-- Settles O16, by the label at the head of the schedule and the inversion of what it can do. -/
theorem invariantKeptByEveryStep : Obligations.InvariantKeptByEveryStep := by
  unfold Obligations.InvariantKeptByEveryStep
  exact ⟨fun p s t hp h ht => h.stepWith hp ht, fun s t h ht => h.stepWith Config.params_legal ht⟩

end Sys2Proof.Machine
end

section
/-! PROOFS. The reset values (R32), the one fault (log entry 9), who changes which buffer (R8, R10, R11, R14), and that
no instruction reads the send buffer (R8). -/

namespace Sys2Proof.Machine

/-! ## Reset -/

/-- Settles O13: Reset gives every element its reset value, and while Stopped with the transmitter off nothing but a
command or a Reset acts. -/
theorem resetStateValues : Obligations.ResetStateValues := by
  unfold Obligations.ResetStateValues
  refine ⟨fun t ht => ?values, fun p l hcmd hreset => ?quiet⟩
  case values =>
    rcases ht with rfl | ⟨p, s, ht⟩
    · exact ⟨fun i _ => ⟨rfl, rfl, rfl⟩, rfl, rfl, rfl, rfl, rfl, rfl, rfl, rfl⟩
    · cases ht
      simp [Mode.code, DState.code, TxState.code]
  case quiet =>
    cases l with
    | cmd w payload ok => exact absurd rfl (hcmd w payload ok)
    | evt e b => exact (deliver_evt_effect p e b State.reset).eq_next_of_not_receive (by decide)
    | tick => rfl
    | txReady => rfl
    | txDone ok => rfl
    | reset => exact absurd rfl hreset
    | internal => rfl

/-! ## Faults -/

/-- What stops a transition, if anything does: the fault, at an index beyond the 512 slots. -/
def StopsOnlyBeyondTheSlots (s : State) : Host.Outcome State Fault Refusal → Prop
  | .next _ => True
  | .fault _ => (s.txstate = .data ∧ 511 < s.txidx.toNat) ∨
      (s.mode = .receive ∧ s.dstate = .receiving ∧ 512 < s.cursor.toNat)
  | .refused _ => False

theorem EventEffect.stops {s : State} {o : Host.Outcome State Fault Refusal} (h : EventEffect s o) :
    StopsOnlyBeyondTheSlots s o := by
  cases h with
  | dropped => trivial
  | moved => trivial
  | continued r hm hd =>
    rcases s.consume_cases r with ⟨-, e⟩ | ⟨hc, e⟩ <;> rw [e]
    · trivial
    · exact .inr ⟨hm, hd, hc⟩
  | started r =>
    rw [State.consume_next r (by simp)]
    trivial

theorem txReady_stops (p : Params) (s : State) : StopsOnlyBeyondTheSlots s (txReady p s) := by
  rcases txReady_cases p s with ⟨-, e⟩ | ⟨hx, e⟩ | ⟨-, -, e⟩ <;> rw [e]
  · trivial
  · rcases handPayload_cases s with ⟨-, e'⟩ | ⟨hi, e'⟩ <;> rw [e']
    · trivial
    · exact .inl ⟨hx, hi⟩
  · trivial

theorem deliver_stops (p : Params) (l : Label) (s : State) : StopsOnlyBeyondTheSlots s (deliver p l s) := by
  cases l with
  | cmd w payload ok =>
    obtain ⟨t, e, -⟩ := deliver_cmd_effect p w payload ok s
    rw [e]
    trivial
  | evt e b => exact (deliver_evt_effect p e b s).stops
  | tick => trivial
  | txReady => exact txReady_stops p s
  | txDone ok => trivial
  | reset => trivial
  | internal => trivial

/-- A Data event in Receiving consumes all its bytes (R90). -/
theorem exec_evData_receiving {n : Field} {b : List Byte} {s : State} (hwf : (Instr.evData n b).wellFormed = true)
    (hm : s.mode = .receive) (hd : s.dstate = .receiving) : exec (.evData n b) s = s.consume b := by
  simp only [Instr.wellFormed, Bool.and_eq_true, beq_iff_eq, decide_eq_true_eq] at hwf
  obtain ⟨hlen, hpos⟩ := hwf
  cases b with
  | nil =>
    rw [List.length_nil] at hlen
    omega
  | cons first rest => simp only [exec, execEvData, whenReceiving_acts _ hm, if_pos hlen, hd]

/-- Settles O18: only `handPayload` and `consume` can stop, and each does exactly beyond the slots. -/
theorem faultsOnlyBeyondTheSlots : Obligations.FaultsOnlyBeyondTheSlots := by
  unfold Obligations.FaultsOnlyBeyondTheSlots
  refine ⟨fun p l s r hr => ?only, fun p l s r hr => ?refused, fun p s hx hi => ?ready,
    fun n b s hwf hm hd hc => ?data⟩
  case only =>
    have h := deliver_stops p l s
    rwa [hr] at h
  case refused =>
    have h := deliver_stops p l s
    rwa [hr] at h
  case ready =>
    rcases handPayload_cases s with ⟨hlt, -⟩ | ⟨-, e⟩
    · omega
    · simp only [deliver, txReady, hx, e]
  case data => rw [exec_evData_receiving hwf hm hd, State.consume_fault b hc]

/-! ## Who changes which buffer -/

/-- Settles O30, by the inversion of what each label can do. -/
theorem bufferOwnership : Obligations.BufferOwnership := by
  unfold Obligations.BufferOwnership
  intro p l s t ht hreset
  cases l with
  | cmd w payload ok =>
    obtain ⟨t', e, he⟩ := deliver_cmd_effect p w payload ok s
    rw [e] at ht
    cases ht
    obtain ⟨hrx, hsh⟩ := he.frame
    exact ⟨fun _ => ⟨w, payload, ok, rfl⟩, absurd hrx, absurd hsh⟩
  | evt e b =>
    have he := deliver_evt_effect p e b s
    rw [ht] at he
    rcases he.frame with rfl | ⟨hm, e'⟩
    · exact ⟨absurd rfl, absurd rfl, absurd rfl⟩
    · exact ⟨absurd (by rw [e']), fun _ => ⟨hm, e, b, rfl⟩, absurd (by rw [e'])⟩
  | tick =>
    cases ht
    exact ⟨absurd s.tick_txslot, absurd s.tick_rxslot, absurd s.tick_txshadow⟩
  | txReady =>
    obtain ⟨htx, hrx, hsh⟩ := txReady_buffers ht
    exact ⟨absurd htx, absurd hrx, absurd hsh⟩
  | txDone ok =>
    cases ht
    obtain ⟨htx, hrx, hsh⟩ := s.txDone_buffers p ok
    exact ⟨absurd htx, absurd hrx, absurd hsh⟩
  | reset => exact absurd rfl hreset
  | internal =>
    cases ht
    obtain ⟨htx, hrx, hsh⟩ := s.internal_buffers p
    exact ⟨absurd htx, absurd hrx, fun h => ⟨rfl, hsh.resolve_left h⟩⟩

/-! ## No instruction reads the send buffer -/

/-- `s` with another send buffer. -/
def State.withTxslot (m : Memory) (s : State) : State := { s with txslot := m }

/-- The receive guard commutes with a change of the state that keeps the mode, if what it guards does. -/
theorem whenReceiving_mapNext (f : State → State) {s : State} (hf : (f s).mode = s.mode)
    {act act' : Host.Outcome State Fault Refusal} (h : act' = mapNext f act) :
    whenReceiving (f s) act' = mapNext f (whenReceiving s act) := by
  by_cases hm : s.mode = .receive
  · rw [whenReceiving_acts act hm, whenReceiving_acts act' (hf.trans hm), h]
  · rw [whenReceiving_drops act hm, whenReceiving_drops act' (hf ▸ hm), mapNext_next]

theorem State.consume_withTxslot (m : Memory) (s : State) (r : List Byte) :
    (s.withTxslot m).consume r = mapNext (State.withTxslot m) (s.consume r) := by
  unfold State.consume
  rw [show (s.withTxslot m).cursor = s.cursor from rfl]
  split <;> rfl

theorem State.teardown_withTxslot (m : Memory) (s : State) :
    (s.withTxslot m).teardown = s.teardown.withTxslot m := by
  rw [State.teardown_eq, State.teardown_eq]
  rfl

theorem State.linkFault_withTxslot (m : Memory) (s : State) :
    (s.withTxslot m).linkFault = s.linkFault.withTxslot m := by
  rw [State.linkFault_eq, State.linkFault_eq]
  rfl

theorem execStart_withTxslot (md : StartMode) (m : Memory) (s : State) :
    execStart md (s.withTxslot m) = mapNext (State.withTxslot m) (execStart md s) := by
  simp only [execStart, State.teardown_withTxslot]
  rw [show (s.withTxslot m).drvOk = s.drvOk from rfl]
  cases s.drvOk <;> cases md <;> rfl

theorem execStop_withTxslot (m : Memory) (s : State) :
    execStop (s.withTxslot m) = mapNext (State.withTxslot m) (execStop s) := by
  simp only [execStop, State.teardown_withTxslot]
  rfl

theorem execEvData_withTxslot (n : Field) (b : List Byte) (m : Memory) (s : State) :
    execEvData n b (s.withTxslot m) = mapNext (State.withTxslot m) (execEvData n b s) := by
  refine whenReceiving_mapNext (State.withTxslot m) rfl ?_
  split
  · cases b with
    | nil => rfl
    | cons first rest =>
      rw [show (s.withTxslot m).dstate = s.dstate from rfl]
      cases s.dstate with
      | breakDetected =>
        dsimp only
        split
        · exact State.consume_withTxslot m { s with cursor := 0, dstate := .receiving } rest
        · rfl
      | receiving => exact State.consume_withTxslot m s (first :: rest)
      | idle => rfl
      | frameDone => rfl
      | linkError => rfl
  · rfl

theorem execEvBreak_withTxslot (m : Memory) (s : State) :
    execEvBreak (s.withTxslot m) = mapNext (State.withTxslot m) (execEvBreak s) := by
  refine whenReceiving_mapNext (State.withTxslot m) rfl ?_
  rw [show (s.withTxslot m).dstate = s.dstate from rfl]
  cases s.dstate <;> rfl

theorem execLinkFault_withTxslot (m : Memory) (s : State) :
    whenReceiving (s.withTxslot m) (.next (s.withTxslot m).linkFault) =
      mapNext (State.withTxslot m) (whenReceiving s (.next s.linkFault)) :=
  whenReceiving_mapNext (State.withTxslot m) rfl (by rw [State.linkFault_withTxslot, mapNext_next])

/-- Whatever the send buffer holds, an instruction does the same but for the send buffer it leaves behind: the three
writes leave their own, every other instruction the one it found. -/
theorem exec_withTxslot (i : Instr) (m : Memory) (s : State) :
    ∃ m', exec i (s.withTxslot m) = mapNext (State.withTxslot m') (exec i s) := by
  cases i with
  | start md => exact ⟨m, execStart_withTxslot md m s⟩
  | stop => exact ⟨m, execStop_withTxslot m s⟩
  | setch v a =>
    simp only [exec, execSetch]
    split
    · exact ⟨m.write (slotIndex a) v, rfl⟩
    · exact ⟨m, rfl⟩
  | setuni payload =>
    simp only [exec, execSetuni]
    split
    · exact ⟨m.writeRun 0 payload, rfl⟩
    · exact ⟨m, rfl⟩
  | write l o payload =>
    simp only [exec, execWrite]
    split
    · split
      · exact ⟨m.writeRun o.toNat payload, rfl⟩
      · exact ⟨m, rfl⟩
    · exact ⟨m, rfl⟩
  | getuni => exact ⟨m, rfl⟩
  | getch a =>
    simp only [exec, execGetch]
    split <;> exact ⟨m, rfl⟩
  | getrng c a =>
    simp only [exec, execGetrng]
    split <;> exact ⟨m, rfl⟩
  | flush => exact ⟨m, rfl⟩
  | getstat => exact ⟨m, rfl⟩
  | evData n b => exact ⟨m, execEvData_withTxslot n b m s⟩
  | evBreak => exact ⟨m, execEvBreak_withTxslot m s⟩
  | evFerr => exact ⟨m, execLinkFault_withTxslot m s⟩
  | evPerr => exact ⟨m, execLinkFault_withTxslot m s⟩
  | evOvf => exact ⟨m, execLinkFault_withTxslot m s⟩
  | evBfull => exact ⟨m, execLinkFault_withTxslot m s⟩

/-- Settles O31: the run with another send buffer is the same run with another send buffer at its end. -/
theorem sendBufferCannotBeRead : Obligations.SendBufferCannotBeRead := by
  unfold Obligations.SendBufferCannotBeRead
  intro i s t m ht
  obtain ⟨m', e⟩ := exec_withTxslot i m s
  rw [ht, mapNext_next] at e
  exact ⟨t.withTxslot m', e, rfl⟩

end Sys2Proof.Machine
end

section
/-! PROOFS. What a transition adds to the trace (R6, R29), what each command but START and STOP does in every state, and
R39: reads are pure, writes are idempotent, and a response stays as it was given. -/

namespace Sys2Proof.Machine

/-! ## What a transition adds to the trace -/

/-- If the transition completes it only adds to the trace `tr`, and the bytes it hands over are `bs` (R6, R29). -/
def HandsOver (tr : List Output) (bs : List Byte) (o : Host.Outcome State Fault Refusal) : Prop :=
  ∀ t, o = .next t → ∃ outs, t.trace = tr ++ outs ∧ txBytes outs = bs

theorem txBytes_append (as bs : List Output) : txBytes (as ++ bs) = txBytes as ++ txBytes bs :=
  List.filterMap_append

theorem HandsOver.next {tr : List Output} {bs : List Byte} {t : State} (outs : List Output)
    (h : t.trace = tr ++ outs) (hb : txBytes outs = bs) : HandsOver tr bs (.next t) := by
  rintro _ ⟨⟩
  exact ⟨outs, h, hb⟩

theorem HandsOver.silent {tr : List Output} {t : State} (h : t.trace = tr) : HandsOver tr [] (.next t) :=
  .next [] (by rw [h, List.append_nil]) rfl

theorem HandsOver.fault (tr : List Output) (bs : List Byte) (r : Fault) : HandsOver tr bs (.fault r) :=
  fun _ ht => nomatch ht

/-- Releasing the break hands over no byte (R102, R126), and what follows it may not either. -/
theorem HandsOver.afterRelease {s t : State} (outs : List Output)
    (h : t.trace = (s.trace ++ if s.brk then [.brkOff] else []) ++ outs) (hb : txBytes outs = []) :
    HandsOver s.trace [] (.next t) := by
  refine .next ((if s.brk then [.brkOff] else []) ++ outs) (by rw [h, List.append_assoc]) ?_
  rw [txBytes_append, hb]
  cases s.brk <;> rfl

/-! ## Commands that leave the session alone -/

/-- The command only outputs: its outputs hand over no byte and depend on the state alone, not on the trace. -/
def OnlyOutputs (e : State → Host.Outcome State Fault Refusal) : Prop :=
  ∀ s : State, ∃ outs, txBytes outs = [] ∧ ∀ tr, e { s with trace := tr } = .next { s with trace := tr ++ outs }

/-- The command only maps the send buffer by a function that is idempotent on slot arrays, and answers; function and
status are the same in every state. -/
def OnlyStores (e : State → Host.Outcome State Fault Refusal) : Prop :=
  ∃ (f : Memory → Memory) (st : Status), (∀ m, m.wf = true → f (f m) = f m) ∧
    ∀ s : State, e s = .next ({ s with txslot := f s.txslot }.respond st [])

theorem execGetuni_onlyOutputs : OnlyOutputs execGetuni :=
  fun s => ⟨[.rsp .ok (s.rxslot.readRun 0 nslot)], rfl, fun _ => rfl⟩

theorem execGetstat_onlyOutputs : OnlyOutputs execGetstat :=
  fun s => ⟨[.rsp .ok [statusByte s.dstate s.mode]], rfl, fun _ => rfl⟩

theorem execFlush_onlyOutputs : OnlyOutputs execFlush := fun s =>
  ⟨[.rxFlush, .rsp .ok []], rfl, fun tr => by simp [execFlush, answer, State.respond, State.emit]⟩

theorem execGetch_onlyOutputs (a : Field) : OnlyOutputs (execGetch a) := by
  intro s
  by_cases h : addressOk a = true
  · exact ⟨[.rsp .ok [s.rxslot.read (slotIndex a)]], rfl, fun _ => if_pos h⟩
  · exact ⟨[.rsp .outOfRange []], rfl, fun _ => if_neg h⟩

theorem execGetrng_onlyOutputs (c a : Field) : OnlyOutputs (execGetrng c a) := by
  intro s
  by_cases h : rangeOk a c = true
  · exact ⟨[.rsp .ok (s.rxslot.readRun (slotIndex a) c.toNat)], rfl, fun _ => if_pos h⟩
  · exact ⟨[.rsp .outOfRange []], rfl, fun _ => if_neg h⟩

/-- A run of writes stored a second time changes nothing. -/
theorem Memory.writeRun_writeRun {m : Memory} (h : m.wf = true) {i : Nat} {bs : List Byte} (hb : i + bs.length ≤ 512) :
    (m.writeRun i bs).writeRun i bs = m.writeRun i bs := by
  have hwf := Memory.wf_writeRun h hb
  refine Memory.ext_read (Memory.wf_writeRun hwf hb) hwf fun j => ?_
  rw [Memory.read_writeRun hwf hb, Memory.read_writeRun h hb]
  split <;> rfl

/-- A command that fails in every state stores nothing. -/
theorem OnlyStores.raise {e : State → Host.Outcome State Fault Refusal} (st : Status) (h : ∀ s, e s = raise st s) :
    OnlyStores e :=
  ⟨id, st, fun _ _ => rfl, h⟩

theorem OnlyStores.writeRun {e : State → Host.Outcome State Fault Refusal} {i : Nat} {bs : List Byte}
    (hb : i + bs.length ≤ 512) (h : ∀ s, e s = answer { s with txslot := s.txslot.writeRun i bs } []) :
    OnlyStores e :=
  ⟨fun m => m.writeRun i bs, .ok, fun _ hwf => Memory.writeRun_writeRun hwf hb, h⟩

theorem execSetch_onlyStores (v : Byte) (a : Field) : OnlyStores (execSetch v a) := by
  by_cases h : addressOk a = true
  · have hb : slotIndex a + [v].length ≤ 512 := by
      have := (addressOk_iff a).1 h
      simp only [slotIndex, List.length_singleton]
      omega
    exact .writeRun hb fun _ => if_pos h
  · exact .raise .outOfRange fun _ => if_neg h

theorem execSetuni_onlyStores (payload : List Byte) : OnlyStores (execSetuni payload) := by
  by_cases h : payload.length = nslot
  · exact .writeRun (by rw [h]; decide) fun _ => if_pos h
  · exact .raise .illegalCommand fun _ => if_neg h

theorem execWrite_onlyStores (l o : Field) (payload : List Byte) : OnlyStores (execWrite l o payload) := by
  by_cases hlen : payload.length = l.toNat
  · by_cases h : offsetOk o l = true
    · exact .writeRun (by rw [hlen]; exact (offsetOk_iff o l).1 h) fun _ => (if_pos hlen).trans (if_pos h)
    · exact .raise .outOfRange fun _ => (if_pos hlen).trans (if_neg h)
  · exact .raise .illegalCommand fun _ => if_neg hlen

/-- A command that only outputs leaves everything but the trace as it was. -/
theorem OnlyOutputs.frame {e : State → Host.Outcome State Fault Refusal} (h : OnlyOutputs e) {s t : State}
    (ht : e s = .next t) : t = { s with trace := t.trace } := by
  obtain ⟨outs, -, he⟩ := h s
  rw [show e s = _ from he s.trace] at ht
  cases ht
  rfl

/-- A command that only stores leaves everything but the send buffer and the trace as it was. -/
theorem OnlyStores.frame {e : State → Host.Outcome State Fault Refusal} (h : OnlyStores e) {s t : State}
    (ht : e s = .next t) : t = { s with txslot := t.txslot, trace := t.trace } := by
  obtain ⟨f, st, -, he⟩ := h
  rw [he] at ht
  cases ht
  rfl

/-! ## Outputs, instruction by instruction -/

theorem OnlyOutputs.handsOver {e : State → Host.Outcome State Fault Refusal} (h : OnlyOutputs e) (s : State) :
    HandsOver s.trace [] (e s) := by
  obtain ⟨outs, hb, he⟩ := h s
  rw [show e s = _ from he s.trace]
  exact .next outs rfl hb

theorem OnlyStores.handsOver {e : State → Host.Outcome State Fault Refusal} (h : OnlyStores e) (s : State) :
    HandsOver s.trace [] (e s) := by
  obtain ⟨f, st, -, he⟩ := h
  rw [he]
  exact .next [.rsp st []] rfl rfl

theorem execStart_handsOver (m : StartMode) (s : State) : HandsOver s.trace [] (execStart m s) := by
  unfold execStart
  split
  · exact .afterRelease [.linkCfg, .dir false, .rsp .driverError []] (by simp) rfl
  · exact .afterRelease [.linkCfg, .dir true, .rsp .ok []] (by simp) rfl
  · exact .afterRelease [.linkCfg, .dir false, .rsp .ok []] (by simp) rfl

theorem execStop_handsOver (s : State) : HandsOver s.trace [] (execStop s) :=
  .afterRelease [.dir false, .rsp .ok []] (by simp) rfl

/-- The receive guard hands over nothing that the action it guards does not. -/
theorem HandsOver.whenReceiving {s : State} {act : Host.Outcome State Fault Refusal}
    (h : HandsOver s.trace [] act) : HandsOver s.trace [] (whenReceiving s act) := by
  by_cases hm : s.mode = .receive
  · rwa [whenReceiving_acts act hm]
  · rw [whenReceiving_drops act hm]
    exact .silent rfl

theorem State.consume_handsOver (s : State) (r : List Byte) : HandsOver s.trace [] (s.consume r) := by
  intro t ht
  rw [State.consume_frame ht]
  exact HandsOver.silent (t := { s with rxslot := t.rxslot, cursor := t.cursor, dstate := t.dstate }) rfl _ rfl

theorem execEvData_handsOver (n : Field) (b : List Byte) (s : State) : HandsOver s.trace [] (execEvData n b s) := by
  refine .whenReceiving ?_
  split
  · cases b with
    | nil => exact .silent rfl
    | cons first rest =>
      cases s.dstate with
      | breakDetected =>
        dsimp only
        split
        · exact State.consume_handsOver { s with cursor := 0, dstate := .receiving } rest
        · exact .silent rfl
      | receiving => exact s.consume_handsOver (first :: rest)
      | idle => exact .silent rfl
      | frameDone => exact .silent rfl
      | linkError => exact .silent rfl
  · exact .silent rfl

theorem execEvBreak_handsOver (s : State) : HandsOver s.trace [] (execEvBreak s) := by
  have hrearm : HandsOver s.trace [] (.next s.rearm) := .next [.rxFlush] rfl rfl
  refine .whenReceiving ?_
  cases s.dstate with
  | receiving => exact .silent rfl
  | idle => exact hrearm
  | frameDone => exact hrearm
  | linkError => exact hrearm
  | breakDetected => exact hrearm

theorem execLinkFault_handsOver (s : State) : HandsOver s.trace [] (whenReceiving s (.next s.linkFault)) :=
  .whenReceiving (.next [.rxFlush] s.linkFault_trace rfl)

/-- No instruction hands over a byte: only `TxReady` does (R29). -/
theorem exec_handsOver (i : Instr) (s : State) : HandsOver s.trace [] (exec i s) := by
  cases i with
  | start m => exact execStart_handsOver m s
  | stop => exact execStop_handsOver s
  | setch v a => exact (execSetch_onlyStores v a).handsOver s
  | setuni payload => exact (execSetuni_onlyStores payload).handsOver s
  | write l o payload => exact (execWrite_onlyStores l o payload).handsOver s
  | getuni => exact execGetuni_onlyOutputs.handsOver s
  | getch a => exact (execGetch_onlyOutputs a).handsOver s
  | getrng c a => exact (execGetrng_onlyOutputs c a).handsOver s
  | flush => exact execFlush_onlyOutputs.handsOver s
  | getstat => exact execGetstat_onlyOutputs.handsOver s
  | evData n b => exact execEvData_handsOver n b s
  | evBreak => exact execEvBreak_handsOver s
  | evFerr => exact execLinkFault_handsOver s
  | evPerr => exact execLinkFault_handsOver s
  | evOvf => exact execLinkFault_handsOver s
  | evBfull => exact execLinkFault_handsOver s

/-! ## Outputs, label by label -/

/-- Nothing is offered outside TX_SC and TX_DATA (R29). -/
theorem State.offered_eq_none (p : Params) {s : State} (hsc : s.txstate ≠ .sc) (hdata : s.txstate ≠ .data) :
    s.offered p = none := by
  revert hsc hdata
  unfold State.offered
  cases s.txstate <;> simp

/-- `TxReady` hands over the byte offered, if any (R29, R79, R80). -/
theorem txReady_handsOver (p : Params) (s : State) : HandsOver s.trace (s.offered p).toList (txReady p s) := by
  rcases txReady_cases p s with ⟨hx, e⟩ | ⟨hx, e⟩ | ⟨hsc, hdata, e⟩ <;> rw [e]
  · exact .next [.txByte p.startCode] rfl (by simp [State.offered, hx, txBytes])
  · rcases handPayload_cases s with ⟨-, e'⟩ | ⟨-, e'⟩ <;> rw [e']
    · exact .next [.txByte (s.txshadow.read s.txidx.toNat)] rfl (by simp [State.offered, hx, txBytes])
    · exact .fault _ _ _
  · rw [State.offered_eq_none p hsc hdata]
    exact .silent rfl

/-- The bytes a transition hands over: the byte offered on `TxReady`, none on any other label (R29). -/
def handedOver (p : Params) (l : Label) (s : State) : List Byte :=
  if l = .txReady then (s.offered p).toList else []

/-- Every transition only adds to the trace, and the bytes it adds are those it hands over (R6, R29). -/
theorem deliver_handsOver (p : Params) (l : Label) (s : State) :
    HandsOver s.trace (handedOver p l s) (deliver p l s) := by
  cases l with
  | cmd w payload ok =>
    by_cases h : ∃ i, decode (.cmd w payload) = .ok i
    · obtain ⟨i, hd⟩ := h
      rw [deliver_cmd_decoded p hd]
      exact exec_handsOver i { s with drvOk := ok }
    · rw [deliver_cmd_undecoded p (not_exists.1 h)]
      exact .next [.rsp .illegalCommand []] rfl rfl
  | evt e b =>
    by_cases h : ∃ i, decode (.evt e b) = .ok i
    · obtain ⟨i, hd⟩ := h
      rw [deliver_evt_decoded p hd]
      exact exec_handsOver i s
    · rw [deliver_evt_undecoded p (not_exists.1 h)]
      exact .silent rfl
  | tick => exact .silent s.tick_trace
  | txReady => exact txReady_handsOver p s
  | txDone ok =>
    rw [deliver]
    rcases s.txDone_cases p ok with ⟨-, e⟩ | ⟨-, e⟩ | ⟨-, -, e⟩ <;> rw [e]
    · exact .next [.brkOn] rfl rfl
    · exact .silent rfl
    · exact .silent rfl
  | reset => exact .afterRelease [.dir false] s.applyReset_trace rfl
  | internal =>
    rw [deliver]
    rcases s.internal_cases p with ⟨-, -, e⟩ | ⟨-, -, e⟩ | ⟨-, -, e⟩ | ⟨-, e⟩ <;> rw [e]
    · exact .next [.brkOff] rfl rfl
    · exact .silent rfl
    · exact .silent rfl
    · exact .silent rfl

/-! ## The obligation -/

/-- A command that only outputs, given again, outputs the same. -/
theorem OnlyOutputs.repeats {e : State → Host.Outcome State Fault Refusal} (h : OnlyOutputs e) {s t u : State}
    (ht : e s = .next t) (hu : e t = .next u) :
    ∃ outs, t.trace = s.trace ++ outs ∧ u.trace = t.trace ++ outs := by
  obtain ⟨outs, -, he⟩ := h s
  rw [show e s = _ from he s.trace] at ht
  cases ht
  rw [he] at hu
  cases hu
  exact ⟨outs, rfl, rfl⟩

/-- A command that only stores, given again, leaves the state the first one left. -/
theorem OnlyStores.idempotent {e : State → Host.Outcome State Fault Refusal} (h : OnlyStores e) {s t u : State}
    (hwf : s.txslot.wf = true) (ht : e s = .next t) (hu : e t = .next u) : u = { t with trace := u.trace } := by
  obtain ⟨f, st, hf, he⟩ := h
  rw [he] at ht
  cases ht
  rw [he] at hu
  cases hu
  simp [State.respond, State.emit, hf _ hwf]

/-- Settles O29: what the four reads answer depends on the state alone, the three writes map the send buffer by an
idempotent function, and every transition only adds to the trace. -/
theorem readsArePureWritesIdempotent : Obligations.ReadsArePureWritesIdempotent := by
  unfold Obligations.ReadsArePureWritesIdempotent
  refine ⟨fun i s t u hi ht hu => ?reads, fun i s t u hi hwf => ?writes, fun p l s t ht => ?trace⟩
  case reads =>
    have h : OnlyOutputs (exec i) := by
      rcases hi with rfl | ⟨a, rfl⟩ | ⟨c, a, rfl⟩ | rfl
      · exact execGetuni_onlyOutputs
      · exact execGetch_onlyOutputs a
      · exact execGetrng_onlyOutputs c a
      · exact execGetstat_onlyOutputs
    exact ⟨h.frame ht, h.repeats ht hu⟩
  case writes =>
    rcases hi with ⟨l, o, payload, rfl⟩ | ⟨v, a, rfl⟩ | ⟨payload, rfl⟩
    · exact (execWrite_onlyStores l o payload).idempotent hwf
    · exact (execSetch_onlyStores v a).idempotent hwf
    · exact (execSetuni_onlyStores payload).idempotent hwf
  case trace =>
    obtain ⟨outs, e, -⟩ := deliver_handsOver p l s t ht
    exact ⟨outs, e⟩

end Sys2Proof.Machine
end

section
/-! PROOFS. R45: the frame on the line is the send buffer as it was at the snapshot point, whatever comes between. -/

namespace Sys2Proof.Machine

/-! ## Transitions that are not the transmitter's -/

/-- A command other than START and STOP changes at most the send buffer and the trace (R8). -/
theorem exec_buildCmd_keepsSession {c : CmdOp} {w : CmdWord} {payload : List Byte} {s t : State}
    (h : exec (buildCmd c w payload) s = .next t) (hstart : c ≠ .start) (hstop : c ≠ .stop) :
    t = { s with txslot := t.txslot, trace := t.trace } := by
  have outputs {e : State → Host.Outcome State Fault Refusal} (he : OnlyOutputs e) (ht : e s = .next t) :
      t = { s with txslot := t.txslot, trace := t.trace } := by
    rw [he.frame ht]
  cases c with
  | start => exact absurd rfl hstart
  | stop => exact absurd rfl hstop
  | setch => exact (execSetch_onlyStores _ _).frame h
  | setuni => exact (execSetuni_onlyStores payload).frame h
  | write => exact (execWrite_onlyStores _ _ payload).frame h
  | getuni => exact outputs execGetuni_onlyOutputs h
  | getch => exact outputs (execGetch_onlyOutputs _) h
  | getrng => exact outputs (execGetrng_onlyOutputs _ _) h
  | flush => exact outputs execFlush_onlyOutputs h
  | getstat => exact outputs execGetstat_onlyOutputs h

/-- The same for a command transition, which also brings the level of `drv_ok_i`. -/
theorem deliver_cmd_keepsSession {p : Params} {w : CmdWord} {payload : List Byte} {ok : Bool} {s t : State}
    (hk : (Label.cmd w payload ok).keepsSession = true) (h : deliver p (.cmd w payload ok) s = .next t) :
    t = { s with drvOk := ok, txslot := t.txslot, trace := t.trace } := by
  by_cases hd : ∃ i, decode (.cmd w payload) = .ok i
  · obtain ⟨i, hd⟩ := hd
    obtain ⟨c, rfl⟩ := decode_cmd_eq_buildCmd hd
    rw [deliver_cmd_decoded p hd] at h
    simp only [Label.keepsSession, hd] at hk
    refine exec_buildCmd_keepsSession h ?_ ?_ <;> rintro rfl <;> exact absurd hk Bool.false_ne_true
  · rw [deliver_cmd_undecoded p (not_exists.1 hd)] at h
    cases h
    rfl

/-- Commands but START and STOP, events and Ticks leave the transmitter's state and position as they are (R74). -/
theorem deliver_keeps_transmitter {p : Params} {l : Label} {s t : State} (hk : l.keepsSession = true)
    (hint : l ≠ .internal) (hready : l ≠ .txReady) (hdone : ∀ ok, l ≠ .txDone ok) (h : deliver p l s = .next t) :
    t.txstate = s.txstate ∧ t.txidx = s.txidx := by
  cases l with
  | cmd w payload ok =>
    rw [deliver_cmd_keepsSession hk h]
    exact ⟨rfl, rfl⟩
  | evt e b =>
    have he := deliver_evt_effect p e b s
    rw [h] at he
    rcases he.frame with rfl | ⟨-, e'⟩
    · exact ⟨rfl, rfl⟩
    · rw [e']
      exact ⟨rfl, rfl⟩
  | tick =>
    cases h
    exact ⟨s.tick_txstate, s.tick_txidx⟩
  | txReady => exact absurd rfl hready
  | txDone ok => exact absurd rfl (hdone ok)
  | reset => exact absurd hk Bool.false_ne_true
  | internal => exact absurd rfl hint

/-- A label that leaves the session alone keeps the snapshot, but at a snapshot point (R11, R78). -/
theorem deliver_keeps_snapshot {p : Params} {l : Label} {s t : State} (hk : l.keepsSession = true)
    (hint : l ≠ .internal) (h : deliver p l s = .next t) : t.txshadow = s.txshadow := by
  have hreset : l ≠ .reset := by
    rintro rfl
    exact absurd hk Bool.false_ne_true
  obtain ⟨-, -, hshadow⟩ := bufferOwnership p l s t h hreset
  by_contra hne
  obtain ⟨hl, -⟩ := hshadow hne
  exact hint hl

/-! ## The frame in progress -/

/-- How much of the frame of snapshot `m` has been handed over, by the state and the position of the transmitter: from
the snapshot point to the gap (R79 to R81). -/
inductive FramePart (p : Params) (m : Memory) : TxState → Field → List Byte → Prop where
  | start : FramePart p m .sc 0 []
  | payload (i : Field) : FramePart p m .data i (p.startCode :: m.readRun 0 i.toNat)
  | sent (i : Field) : FramePart p m .flush i (p.startCode :: m.readRun 0 512)
  | gap (i : Field) : FramePart p m .gap i (p.startCode :: m.readRun 0 512)

/-- Since the trace was `tr` the transmitter has handed over its part of the frame of snapshot `m`, which it holds. -/
structure InFrame (p : Params) (m : Memory) (tr : List Output) (s : State) : Prop where
  shadow : s.txshadow = m
  handed : ∃ outs, s.trace = tr ++ outs ∧ FramePart p m s.txstate s.txidx (txBytes outs)

section Frame
variable {p : Params} {m : Memory} {tr : List Output} {s t : State}

theorem FramePart.start_iff {i : Field} {bs : List Byte} : FramePart p m .sc i bs ↔ i = 0 ∧ bs = [] := by
  constructor
  · rintro ⟨⟩
    exact ⟨rfl, rfl⟩
  · rintro ⟨rfl, rfl⟩
    exact .start

theorem FramePart.payload_iff {i : Field} {bs : List Byte} :
    FramePart p m .data i bs ↔ bs = p.startCode :: m.readRun 0 i.toNat := by
  constructor
  · rintro ⟨⟩
    rfl
  · rintro rfl
    exact .payload i

theorem FramePart.sent_iff {i : Field} {bs : List Byte} :
    FramePart p m .flush i bs ↔ bs = p.startCode :: m.readRun 0 512 := by
  constructor
  · rintro ⟨⟩
    rfl
  · rintro rfl
    exact .sent i

/-- A payload byte more is a longer part, and the whole frame once the position is 512 (R80). -/
theorem FramePart.nextPayload {i : Field} (hi : i.toNat < 512) :
    FramePart p m (if i + 1 = 512#10 then .flush else .data) (i + 1)
      (p.startCode :: m.readRun 0 i.toNat ++ [m.read i.toNat]) := by
  have hsucc : (i + 1).toNat = i.toNat + 1 := BitVec.toNat_add_of_lt (by simp; omega)
  have hbytes : p.startCode :: m.readRun 0 i.toNat ++ [m.read i.toNat] = p.startCode :: m.readRun 0 (i + 1).toNat := by
    rw [hsucc, Memory.readRun_succ, Nat.zero_add, List.cons_append]
  rw [hbytes]
  split
  · next hlast =>
    rw [hlast]
    exact .sent _
  · exact .payload _

/-- `TxReady` moves on in the frame by the byte offered. -/
theorem FramePart.afterReady {bs : List Byte} (h : FramePart p s.txshadow s.txstate s.txidx bs)
    (ht : txReady p s = .next t) : FramePart p s.txshadow t.txstate t.txidx (bs ++ (s.offered p).toList) := by
  rcases txReady_cases p s with ⟨hx, e⟩ | ⟨hx, e⟩ | ⟨hsc, hdata, e⟩
  · rw [hx, FramePart.start_iff] at h
    obtain ⟨hi, rfl⟩ := h
    rw [e] at ht
    cases ht
    simp only [State.handStartCode_txstate, State.handStartCode_txidx, State.offered, hx, hi]
    exact .payload 0
  · rw [hx, FramePart.payload_iff] at h
    rcases handPayload_cases s with ⟨hi, e'⟩ | ⟨-, e'⟩
    · rw [e, e'] at ht
      cases ht
      simp only [State.offered, hx, h]
      exact .nextPayload hi
    · rw [e, e'] at ht
      cases ht
  · rw [e] at ht
    cases ht
    rwa [State.offered_eq_none p hsc hdata, Option.toList_none, List.append_nil]

/-- In a frame `TxDone` only acts after the last byte, and then the gap begins (R81). -/
theorem FramePart.afterDone {bs : List Byte} (ok : Bool) (h : FramePart p m s.txstate s.txidx bs) :
    FramePart p m (s.txDone p ok).txstate (s.txDone p ok).txidx bs := by
  rcases s.txDone_cases p ok with ⟨hx, -⟩ | ⟨hx, e⟩ | ⟨-, -, e⟩
  · rw [hx] at h
    cases h
  · rw [hx, FramePart.sent_iff] at h
    rw [e, h]
    exact .gap _
  · rwa [e]

/-- The snapshot point begins a frame of what the send buffer holds (R78). -/
theorem State.takeSnapshot_inFrame (p : Params) (s : State) : InFrame p s.txslot s.trace s.takeSnapshot where
  shadow := rfl
  handed := ⟨[], (List.append_nil _).symm, .start⟩

/-- A label that leaves the session alone moves on in the frame by the bytes it hands over. -/
theorem FramePart.afterDeliver {bs : List Byte} (h : FramePart p s.txshadow s.txstate s.txidx bs) {l : Label}
    (hk : l.keepsSession = true) (hint : l ≠ .internal) (ht : deliver p l s = .next t) :
    FramePart p s.txshadow t.txstate t.txidx (bs ++ handedOver p l s) := by
  by_cases hready : l = .txReady
  · subst hready
    exact h.afterReady ht
  · rw [handedOver, if_neg hready, List.append_nil]
    by_cases hdone : ∃ ok, l = .txDone ok
    · obtain ⟨ok, rfl⟩ := hdone
      cases ht
      exact h.afterDone ok
    · obtain ⟨hx, hi⟩ := deliver_keeps_transmitter hk hint hready (not_exists.1 hdone) ht
      rwa [hx, hi]

/-- Every label but Reset, START, STOP and an internal step keeps the frame going. -/
theorem InFrame.deliver (h : InFrame p m tr s) {l : Label} (hk : l.keepsSession = true) (hint : l ≠ .internal)
    (ht : deliver p l s = .next t) : InFrame p m tr t := by
  obtain ⟨rfl, outs, htrace, hpart⟩ := h
  obtain ⟨new, htrace', hnew⟩ := deliver_handsOver p l s t ht
  refine ⟨deliver_keeps_snapshot hk hint ht, outs ++ new, by rw [htrace', htrace, List.append_assoc], ?_⟩
  rw [txBytes_append, hnew]
  exact hpart.afterDeliver hk hint ht

theorem runLabels_cons_next {l : Label} {ls : List Label} (h : runLabels p (l :: ls) s = .next t) :
    ∃ u, deliver p l s = .next u ∧ runLabels p ls u = .next t := by
  rw [runLabels] at h
  cases hd : Machine.deliver p l s with
  | next u => exact ⟨u, rfl, by rwa [hd] at h⟩
  | fault r => rw [hd] at h; cases h
  | refused r => rw [hd] at h; cases h

theorem InFrame.run {ls : List Label} (h : InFrame p m tr s)
    (hls : ∀ l ∈ ls, l.keepsSession = true ∧ l ≠ .internal) (ht : runLabels p ls s = .next t) : InFrame p m tr t := by
  induction ls generalizing s with
  | nil =>
    cases ht
    exact h
  | cons l ls ih =>
    obtain ⟨u, hu, ht⟩ := runLabels_cons_next ht
    obtain ⟨hk, hint⟩ := hls l List.mem_cons_self
    exact ih (h.deliver hk hint hu) (fun l' hl' => hls l' (List.mem_cons_of_mem l hl')) ht

end Frame

/-! ## The obligation -/

/-- Settles O44, by induction on the labels after the snapshot point: each keeps the snapshot and moves on in its frame
by the bytes it hands over, and in TX_FLUSH the frame is whole. -/
theorem frameCarriesTheSnapshot : Obligations.FrameCarriesTheSnapshot := by
  unfold Obligations.FrameCarriesTheSnapshot
  intro p ls s t hx htmr hls ht hflush
  obtain ⟨u, hu, ht⟩ := runLabels_cons_next ht
  have hsnap : u = s.takeSnapshot := by
    rw [deliver, State.internal, hx] at hu
    cases hu
    exact if_pos htmr
  have hframe : InFrame p s.txslot s.trace t := (hsnap ▸ s.takeSnapshot_inFrame p : InFrame _ _ _ u).run hls ht
  obtain ⟨-, outs, htrace, hpart⟩ := hframe
  rw [hflush, FramePart.sent_iff] at hpart
  exact ⟨outs, htrace, hpart⟩

end Sys2Proof.Machine
end

section
/-! PROOFS. The two encoding tables, field by field, and what decodes: the rows of R54 and R59 written as conditions on
the fields, and decoding and encoding inverse to each other (30_encoding.md sections 1, 2 and 5). -/

namespace Sys2Proof

/-! ## The command table -/

/-- A row of R54 selects the words with its code whose unused fields are 0. -/
theorem CmdOp.selects_iff {c : CmdOp} {w : CmdWord} :
    c.selects w = true ↔ wordOp w = c.opcode ∧ c.fieldsOk (wordVal w) (wordB w) (wordA w) := by
  have h := CmdOp.selects_packCmd c (wordOp w) (wordVal w) (wordB w) (wordA w)
  rwa [packCmd_fields] at h

/-- The number of payload bytes of a command whose field `b` is as given (R53). -/
def CmdOp.payloadBytes : CmdOp → Field → Nat
  | .setuni, _ => 512
  | .write, b => b.toNat
  | .start, _ | .stop, _ | .setch, _ | .getuni, _ | .getch, _ | .getrng, _ | .flush, _ | .getstat, _ => 0

theorem payloadLength_of_selects {c : CmdOp} {w : CmdWord} (h : c.selects w = true) :
    payloadLength w = c.payloadBytes (wordB w) := by
  rw [payloadLength, cmdOf_eq_some.2 h]
  cases c <;> rfl

/-- What a command transaction decodes to: the command of the row its word matches, if the payload is as long as the
word fixes. -/
theorem decode_cmd_eq_ok {w : CmdWord} {p : List Byte} {i : Instr} :
    decode (.cmd w p) = .ok i ↔ ∃ c, c.selects w = true ∧ p.length = payloadLength w ∧ buildCmd c w p = i := by
  constructor
  · intro h
    rw [decode, decodeCmd] at h
    cases hrow : cmdOf w with
    | none =>
      rw [hrow] at h
      cases h
    | some c =>
      simp only [hrow] at h
      split at h
      · next hlen => exact ⟨c, cmdOf_eq_some.1 hrow, hlen, Except.ok.inj h⟩
      · cases h
  · rintro ⟨c, hsel, hlen, rfl⟩
    simp only [decode, decodeCmd, cmdOf_eq_some.2 hsel, if_pos hlen]

theorem decode_cmd_of_selects {c : CmdOp} {w : CmdWord} {p : List Byte} (hsel : c.selects w = true)
    (hlen : p.length = payloadLength w) : decode (.cmd w p) = .ok (buildCmd c w p) :=
  decode_cmd_eq_ok.2 ⟨c, hsel, hlen, rfl⟩

/-- The mode bit of START is all of its field `a` (R52, R103). -/
theorem field_startModeOf {w : CmdWord} (h : wordA w = 0 ∨ wordA w = 1) : (startModeOf w).field = wordA w := by
  have hbit : w.getLsbD 0 = (wordA w).getLsbD 0 := by simp [wordA]
  rw [startModeOf, hbit]
  rcases h with h | h <;> rw [h] <;> rfl

/-- The command of a row carries the payload its word fixes. -/
theorem buildCmd_wellFormed {c : CmdOp} {w : CmdWord} {p : List Byte} (hsel : c.selects w = true)
    (hlen : p.length = payloadLength w) : (buildCmd c w p).wellFormed = true := by
  rw [payloadLength_of_selects hsel] at hlen
  cases c with
  | setuni => exact beq_iff_eq.2 hlen
  | write => exact beq_iff_eq.2 hlen
  | start | stop | setch | getuni | getch | getrng | flush | getstat => rfl

/-- Encoding the command of a row gives back every field of the word, the unused ones being 0. -/
theorem encode_buildCmd {c : CmdOp} {w : CmdWord} {p : List Byte} (hsel : c.selects w = true)
    (hlen : p.length = payloadLength w) : encode (buildCmd c w p) = .cmd w p := by
  obtain ⟨hop, hfields⟩ := CmdOp.selects_iff.1 hsel
  have hw : packCmd c.opcode (wordVal w) (wordB w) (wordA w) = w := hop ▸ packCmd_fields w
  rw [payloadLength_of_selects hsel] at hlen
  have hnone : c.payloadBytes (wordB w) = 0 → p = [] := fun h => List.length_eq_zero_iff.1 (hlen.trans h)
  cases c with
  | start =>
    obtain ⟨hv, hb, ha⟩ := hfields
    obtain rfl := hnone rfl
    rw [hv, hb, ← field_startModeOf ha] at hw
    exact congrArg (Transaction.cmd · []) hw
  | write =>
    rw [hfields] at hw
    exact congrArg (Transaction.cmd · p) hw
  | setch | getrng =>
    obtain rfl := hnone rfl
    rw [hfields] at hw
    exact congrArg (Transaction.cmd · []) hw
  | getch =>
    obtain ⟨hv, hb⟩ := hfields
    obtain rfl := hnone rfl
    rw [hv, hb] at hw
    exact congrArg (Transaction.cmd · []) hw
  | setuni =>
    obtain ⟨hv, hb, ha⟩ := hfields
    rw [hv, hb, ha] at hw
    exact congrArg (Transaction.cmd · p) hw
  | stop | getuni | flush | getstat =>
    obtain ⟨hv, hb, ha⟩ := hfields
    obtain rfl := hnone rfl
    rw [hv, hb, ha] at hw
    exact congrArg (Transaction.cmd · []) hw

/-! ## The event table -/

/-- A row of R59 selects the descriptors with its type, no reserved bit and a length it allows. -/
theorem EvtOp.selects_iff {c : EvtOp} {e : EvtWord} :
    c.selects e = true ↔ evtType e = c.type ∧ evtReserved e = 0 ∧ c.lenOk (evtLen e) := by
  have h := EvtOp.selects_packEvt c (evtType e) (evtReserved e) (evtLen e)
  rwa [packEvt_fields] at h

/-- What an event transaction decodes to: the event of the row its descriptor matches, if as many bytes follow as the
descriptor says. -/
theorem decode_evt_eq_ok {e : EvtWord} {b : List Byte} {i : Instr} :
    decode (.evt e b) = .ok i ↔ ∃ c, c.selects e = true ∧ b.length = (evtLen e).toNat ∧ buildEvt c e b = i := by
  constructor
  · intro h
    rw [decode, decodeEvt] at h
    cases hrow : evtOf e with
    | none =>
      rw [hrow] at h
      cases h
    | some c =>
      simp only [hrow] at h
      split at h
      · next hlen => exact ⟨c, evtOf_eq_some.1 hrow, hlen, Except.ok.inj h⟩
      · cases h
  · rintro ⟨c, hsel, hlen, rfl⟩
    simp only [decode, decodeEvt, evtOf_eq_some.2 hsel, if_pos hlen]

theorem decode_evt_of_selects {c : EvtOp} {e : EvtWord} {b : List Byte} (hsel : c.selects e = true)
    (hlen : b.length = (evtLen e).toNat) : decode (.evt e b) = .ok (buildEvt c e b) :=
  decode_evt_eq_ok.2 ⟨c, hsel, hlen, rfl⟩

/-- The event of a row carries the bytes its descriptor announces. -/
theorem buildEvt_wellFormed {c : EvtOp} {e : EvtWord} {b : List Byte} (hsel : c.selects e = true)
    (hlen : b.length = (evtLen e).toNat) : (buildEvt c e b).wellFormed = true := by
  obtain ⟨-, -, hn⟩ := EvtOp.selects_iff.1 hsel
  cases c with
  | data => exact Bool.and_eq_true_iff.2 ⟨beq_iff_eq.2 hlen, decide_eq_true hn⟩
  | brk | ferr | perr | ovf | bfull => rfl

/-- Encoding the event of a row gives back every field of the descriptor. -/
theorem encode_buildEvt {c : EvtOp} {e : EvtWord} {b : List Byte} (hsel : c.selects e = true)
    (hlen : b.length = (evtLen e).toNat) : encode (buildEvt c e b) = .evt e b := by
  obtain ⟨htype, hres, hn⟩ := EvtOp.selects_iff.1 hsel
  have he : packEvt c.type 0 (evtLen e) = e := by
    rw [← htype, ← hres]
    exact packEvt_fields e
  cases c with
  | data => exact congrArg (Transaction.evt · b) he
  | brk | ferr | perr | ovf | bfull =>
    have hnone : b = [] := List.length_eq_zero_iff.1 (hlen.trans (congrArg BitVec.toNat hn))
    rw [hnone, ← he, hn]
    rfl

/-! ## Decoding and encoding are inverse to each other -/

theorem encodesInItsRow (i : Instr) : Laws.EncodesInItsRow.Statement i := by
  cases i with
  | start m => exact Laws.EncodesInItsRow.start m
  | stop => exact Laws.EncodesInItsRow.stop
  | setch v a => exact Laws.EncodesInItsRow.setch v a
  | setuni p => exact Laws.EncodesInItsRow.setuni p
  | write l o p => exact Laws.EncodesInItsRow.write l o p
  | getuni => exact Laws.EncodesInItsRow.getuni
  | getch a => exact Laws.EncodesInItsRow.getch a
  | getrng c s => exact Laws.EncodesInItsRow.getrng c s
  | flush => exact Laws.EncodesInItsRow.flush
  | getstat => exact Laws.EncodesInItsRow.getstat
  | evData n b => exact Laws.EncodesInItsRow.evData n b
  | evBreak => exact Laws.EncodesInItsRow.evBreak
  | evFerr => exact Laws.EncodesInItsRow.evFerr
  | evPerr => exact Laws.EncodesInItsRow.evPerr
  | evOvf => exact Laws.EncodesInItsRow.evOvf
  | evBfull => exact Laws.EncodesInItsRow.evBfull

theorem decode_cmd_of_row {c : CmdOp} {w : CmdWord} {p : List Byte} {i : Instr}
    (hrow : cmdOf w = some c ∧ p.length = payloadLength w) (hbuild : buildCmd c w p = i) :
    decode (.cmd w p) = .ok i :=
  decode_cmd_eq_ok.2 ⟨c, cmdOf_eq_some.1 hrow.1, hrow.2, hbuild⟩

theorem decode_evt_of_row {c : EvtOp} {e : EvtWord} {b : List Byte} {i : Instr}
    (hrow : evtOf e = some c ∧ b.length = (evtLen e).toNat) (hbuild : buildEvt c e b = i) :
    decode (.evt e b) = .ok i :=
  decode_evt_eq_ok.2 ⟨c, evtOf_eq_some.1 hrow.1, hrow.2, hbuild⟩

/-- Settles O1: the encoded word lies in the row of its instruction, and the operands are read back from the fields
they were packed into. -/
theorem decodeOfEncode : Obligations.DecodeOfEncode := by
  unfold Obligations.DecodeOfEncode
  intro i hwf
  have hrow := encodesInItsRow i hwf
  cases i with
  | start m => exact decode_cmd_of_row hrow (by cases m <;> rfl)
  | setch v a => exact decode_cmd_of_row hrow (by simp only [buildCmd, wordVal_packCmd, wordA_packCmd])
  | write l o p => exact decode_cmd_of_row hrow (by simp only [buildCmd, wordB_packCmd, wordA_packCmd])
  | getch a => exact decode_cmd_of_row hrow (by simp only [buildCmd, wordA_packCmd])
  | getrng c s => exact decode_cmd_of_row hrow (by simp only [buildCmd, wordB_packCmd, wordA_packCmd])
  | stop | setuni _ | getuni | flush | getstat => exact decode_cmd_of_row hrow rfl
  | evData n b => exact decode_evt_of_row hrow (by simp only [buildEvt, evtLen_packEvt])
  | evBreak | evFerr | evPerr | evOvf | evBfull => exact decode_evt_of_row hrow rfl

/-- Settles O2: a transaction decodes by one row of a table, and the instruction of that row encodes back to it. -/
theorem encodeOfDecode : Obligations.EncodeOfDecode := by
  unfold Obligations.EncodeOfDecode
  intro x i h
  cases x with
  | cmd w p =>
    obtain ⟨c, hsel, hlen, rfl⟩ := decode_cmd_eq_ok.1 h
    exact ⟨buildCmd_wellFormed hsel hlen, encode_buildCmd hsel hlen⟩
  | evt e b =>
    obtain ⟨c, hsel, hlen, rfl⟩ := decode_evt_eq_ok.1 h
    exact ⟨buildEvt_wellFormed hsel hlen, encode_buildEvt hsel hlen⟩

end Sys2Proof
end

section
/-! PROOFS. The command table (R52 to R55, R111): every row selects its command, the payload is as long as the word
fixes, and whatever else the host port carries is answered `IllegalCommand`. -/

namespace Sys2Proof

open Sys2Proof.Machine

/-- Settles O4: each conjunct is `CmdOp.selects` of one row. -/
theorem commandTableSelectsCommands : Obligations.CommandTableSelectsCommands := by
  unfold Obligations.CommandTableSelectsCommands
  intro w p hlen
  have hrow : ∀ c : CmdOp, w &&& c.mask = c.pattern → decode (.cmd w p) = .ok (buildCmd c w p) :=
    fun _ h => decode_cmd_of_selects (beq_iff_eq.2 h) hlen
  exact ⟨hrow .start, hrow .stop, hrow .setch, hrow .setuni, hrow .write, hrow .getuni, hrow .getch, hrow .getrng,
    hrow .flush, hrow .getstat⟩

/-- Settles O3: a word is its packed fields, and the word of a decoded command is the one its encoder packs. -/
theorem commandWordIsItsFields : Obligations.CommandWordIsItsFields := by
  unfold Obligations.CommandWordIsItsFields
  refine ⟨fun w => ?_, fun w p i hdec => ?_⟩
  · rw [← toNat_packCmd, packCmd_fields]
  · obtain ⟨c, -, hlen, -⟩ := decode_cmd_eq_ok.1 hdec
    refine ⟨hlen, ?_⟩
    obtain ⟨-, henc⟩ := encodeOfDecode (.cmd w p) i hdec
    cases i with
    | evData | evBreak | evFerr | evPerr | evOvf | evBfull => cases henc
    | start | stop | setch | setuni | write | getuni | getch | getrng | flush | getstat =>
      cases henc
      simp only [wordVal_packCmd, wordB_packCmd, wordA_packCmd, and_self]

/-! ## Which words are commands -/

theorem allCmds_map_eq_commandRows : (allCmds.map fun c => (c.pattern, c.mask)) = commandRows := rfl

theorem mem_allCmds (c : CmdOp) : c ∈ allCmds := by cases c <;> decide

/-- A word is a command when a row of the decoder's table selects it. -/
theorem isCommandWord_iff {w : CmdWord} : isCommandWord w = true ↔ ∃ c : CmdOp, c.selects w = true := by
  rw [isCommandWord, ← allCmds_map_eq_commandRows, List.any_map, List.any_eq_true]
  exact ⟨fun ⟨c, _, h⟩ => ⟨c, h⟩, fun ⟨c, h⟩ => ⟨c, mem_allCmds c, h⟩⟩

theorem isCommandWord_eq_false_iff {w : CmdWord} :
    isCommandWord w = false ↔ ∀ c : CmdOp, ¬ c.selects w = true := by
  rw [← Bool.not_eq_true, isCommandWord_iff, not_exists]

/-- Settles O56: the codes of the rows differ, so no word has two of them. -/
theorem commandRowsAreDisjoint : Obligations.CommandRowsAreDisjoint := by
  unfold Obligations.CommandRowsAreDisjoint
  refine ⟨allCmds_map_eq_commandRows, fun w => ?_, fun c w p => decode_cmd_of_selects⟩
  have hnodup : (allCmds.filter fun c => c.selects w).Nodup := List.Nodup.filter _ (by decide)
  rw [← List.toFinset_card_of_nodup hnodup, Finset.card_le_one]
  intro c hc d hd
  simp only [List.mem_toFinset, List.mem_filter] at hc hd
  exact CmdOp.selects_unique hc.2 hd.2

/-! ## Payload length -/

theorem payloadLength_of_illegal {w : CmdWord} (h : isCommandWord w = false) : payloadLength w = 0 := by
  have hnone : cmdOf w = none :=
    Option.eq_none_iff_forall_ne_some.2 fun c hc => isCommandWord_eq_false_iff.1 h c (cmdOf_eq_some.1 hc)
  rw [payloadLength, hnone]

/-- The payload length of a command by its code (R53). -/
theorem CmdOp.payloadBytes_eq (c : CmdOp) (b : Field) :
    c.payloadBytes b = if c.opcode = 0x4 then 512 else if c.opcode = 0x5 then b.toNat else 0 := by
  cases c <;> rfl

theorem payloadLength_eq (w : CmdWord) : payloadLength w =
    if isCommandWord w then
      if wordOp w = 0x4 then 512 else if wordOp w = 0x5 then (wordB w).toNat else 0
    else 0 := by
  by_cases h : isCommandWord w = true
  · obtain ⟨c, hsel⟩ := isCommandWord_iff.1 h
    rw [if_pos h, payloadLength_of_selects hsel, CmdOp.payloadBytes_eq, (CmdOp.selects_iff.1 hsel).1]
  · rw [if_neg h, payloadLength_of_illegal (Bool.not_eq_true _ ▸ h)]

theorem answersIllegal_of_payload_length {w : CmdWord} {p : List Byte} (h : p.length ≠ payloadLength w) :
    AnswersIllegal w p := by
  refine fun params ok s => deliver_cmd_undecoded params (fun i hdec => ?_) ok s
  obtain ⟨c, -, hlen, -⟩ := decode_cmd_eq_ok.1 hdec
  exact h hlen

theorem answersIllegal_of_illegal {w : CmdWord} (h : isCommandWord w = false) (p : List Byte) :
    AnswersIllegal w p := by
  refine fun params ok s => deliver_cmd_undecoded params (fun i hdec => ?_) ok s
  obtain ⟨c, hsel, -⟩ := decode_cmd_eq_ok.1 hdec
  exact isCommandWord_eq_false_iff.1 h c hsel

/-- Settles O5: the length of a row by its code, and a legal transaction decodes and encodes back to its own bytes. -/
theorem payloadLengthFixedByWord : Obligations.PayloadLengthFixedByWord := by
  unfold Obligations.PayloadLengthFixedByWord
  refine ⟨payloadLength_eq, fun _ _ => answersIllegal_of_payload_length, fun w p hword hlen => ?_⟩
  obtain ⟨c, hsel⟩ := isCommandWord_iff.1 hword
  exact ⟨buildCmd c w p, decode_cmd_of_selects hsel hlen, encode_buildCmd hsel hlen⟩

/-! ## Illegal words -/

theorem CmdOp.opcode_cover (op : BitVec 4) : op = 0x0 ∨ 0xB ≤ op.toNat ∨ ∃ c ∈ allCmds, op = c.opcode := by
  revert op
  decide

theorem CmdOp.opcode_bounds (c : CmdOp) : c.opcode ≠ 0x0 ∧ ¬ 0xB ≤ c.opcode.toNat := by
  cases c <;> decide

/-- The words no row selects, field by field (R55). -/
theorem CmdOp.no_row_iff (op : BitVec 4) (v : Byte) (b a : Field) :
    (∀ c : CmdOp, ¬ (op = c.opcode ∧ c.fieldsOk v b a)) ↔
      op = 0x0 ∨ 0xB ≤ op.toNat ∨
      (op = 0x1 ∧ (v ≠ 0 ∨ b ≠ 0 ∨ (a ≠ 0 ∧ a ≠ 1))) ∨
      (op = 0x3 ∧ b ≠ 0) ∨
      ((op = 0x5 ∨ op = 0x8) ∧ v ≠ 0) ∨
      (op = 0x7 ∧ (v ≠ 0 ∨ b ≠ 0)) ∨
      ((op = 0x2 ∨ op = 0x4 ∨ op = 0x6 ∨ op = 0x9 ∨ op = 0xA) ∧ (v ≠ 0 ∨ b ≠ 0 ∨ a ≠ 0)) := by
  rcases CmdOp.opcode_cover op with rfl | hop | ⟨c, -, rfl⟩
  · exact iff_of_true (fun c h => c.opcode_bounds.1 h.1.symm) (.inl rfl)
  · exact iff_of_true (fun c h => c.opcode_bounds.2 (h.1 ▸ hop)) (.inr (.inl hop))
  · have hrow : (∀ d : CmdOp, ¬ (c.opcode = d.opcode ∧ d.fieldsOk v b a)) ↔ ¬ c.fieldsOk v b a :=
      ⟨fun h hc => h c ⟨rfl, hc⟩, fun h d ⟨hd, hf⟩ => h (CmdOp.opcode_injective hd ▸ hf)⟩
    rw [hrow]
    -- the fields that row `c` leaves unused, negated one by one
    cases c <;> simp [CmdOp.opcode, CmdOp.fieldsOk, -not_and, not_and_or]

/-- Settles O6: no row selects an illegal word, so it does not decode, whatever payload comes with it. -/
theorem illegalWordsAnswered : Obligations.IllegalWordsAnswered := by
  unfold Obligations.IllegalWordsAnswered
  refine ⟨fun w p h => ⟨payloadLength_of_illegal h, answersIllegal_of_illegal h p⟩,
    fun _ _ => answersIllegal_of_payload_length, fun w => ?_⟩
  simp only [isCommandWord_eq_false_iff, CmdOp.selects_iff]
  exact CmdOp.no_row_iff (wordOp w) (wordVal w) (wordB w) (wordA w)

end Sys2Proof
end

section
/-! PROOFS. The event table (R58 to R60): every row selects its event, and every other descriptor is dropped. -/

namespace Sys2Proof

open Sys2Proof.Machine

/-- Settles O7: each conjunct is `EvtOp.selects` of one row. -/
theorem eventTableSelectsEvents : Obligations.EventTableSelectsEvents := by
  unfold Obligations.EventTableSelectsEvents
  intro e b hlen
  have hrow : ∀ c : EvtOp, e &&& c.mask = c.pattern → (c != .data || decide (1 ≤ (evtLen e).toNat)) = true →
      decode (.evt e b) = .ok (buildEvt c e b) :=
    fun _ h hdata => decode_evt_of_selects (Bool.and_eq_true_iff.2 ⟨beq_iff_eq.2 h, hdata⟩) hlen
  exact ⟨fun h hn => hrow .data h (decide_eq_true hn), (hrow .brk · rfl), (hrow .ferr · rfl), (hrow .perr · rfl),
    (hrow .ovf · rfl), (hrow .bfull · rfl)⟩

/-! ## Which descriptors are events -/

theorem mem_allEvts (c : EvtOp) : c ∈ allEvts := by cases c <;> decide

theorem allEvts_map_eq_eventRows : (allEvts.map fun c => (c.pattern, c.mask)) = eventRows := rfl

theorem one_le_toNat_iff {n : Field} : 1 ≤ n.toNat ↔ n ≠ 0 := by
  bv_omega

/-- A Data event has bytes and a condition event has none. -/
theorem EvtOp.lenOk_iff (c : EvtOp) (n : Field) : c.lenOk n ↔ (c.type = 0 ↔ n ≠ 0) := by
  cases c <;> simp [EvtOp.lenOk, EvtOp.type, one_le_toNat_iff]

/-- The mask of the Data row keeps the type and the reserved bits. -/
theorem and_dataMask (e : EvtWord) : e &&& EvtOp.data.mask = packEvt (evtType e) (evtReserved e) 0 := by
  have hmask : ∀ x : BitVec 3, x &&& 7 = x := by decide
  conv_lhs => rw [← packEvt_fields e, show EvtOp.data.mask = packEvt 7 7 0 from rfl, packEvt_and, hmask, hmask]
  exact congrArg _ BitVec.and_zero

/-- The extra condition of the Data row (R59): in a descriptor that matches the row only `len` can be other than 0. -/
theorem EvtOp.selects_iff_ne_zero {c : EvtOp} {e : EvtWord} :
    c.selects e = true ↔ e &&& c.mask = c.pattern ∧ e ≠ 0 := by
  rw [EvtOp.selects, Bool.and_eq_true, beq_iff_eq]
  refine and_congr_right fun h => ?_
  cases c with
  | data =>
    have hfields : packEvt (evtType e) (evtReserved e) 0 = packEvt 0 0 0 := (and_dataMask e).symm.trans h
    obtain ⟨ht, hr, -⟩ := packEvt_inj.1 hfields
    have he : packEvt 0 0 (evtLen e) = e := by
      rw [← packEvt_fields e, ht, hr, evtLen_packEvt]
    have hzero : e = 0 ↔ evtLen e = 0 :=
      ⟨fun h0 => by rw [h0]; rfl, fun h0 => by rw [← he, h0]; rfl⟩
    rw [bne_self_eq_false, Bool.false_or, decide_eq_true_iff, one_le_toNat_iff, ne_eq, ne_eq, hzero]
  | brk | ferr | perr | ovf | bfull =>
    refine iff_of_true rfl ?_
    rintro rfl
    cases h

/-- A descriptor is an event when a row of the decoder's table selects it. -/
theorem isEventWord_iff {e : EvtWord} : isEventWord e = true ↔ ∃ c : EvtOp, c.selects e = true := by
  rw [isEventWord, ← allEvts_map_eq_eventRows, List.any_map, Bool.and_eq_true, List.any_eq_true, bne_iff_ne]
  simp only [EvtOp.selects_iff_ne_zero, exists_and_right]
  exact and_congr_left fun _ =>
    ⟨fun ⟨c, _, h⟩ => ⟨c, beq_iff_eq.1 h⟩, fun ⟨c, h⟩ => ⟨c, mem_allEvts c, beq_iff_eq.2 h⟩⟩

theorem EvtOp.type_cover (t : BitVec 3) : 6 ≤ t.toNat ∨ ∃ c ∈ allEvts, t = c.type := by
  revert t
  decide

theorem EvtOp.type_bound (c : EvtOp) : ¬ 6 ≤ c.type.toNat := by
  cases c <;> decide

/-- The descriptors no row selects, field by field (R60). -/
theorem EvtOp.no_row_iff (t r : BitVec 3) (n : Field) :
    (∀ c : EvtOp, ¬ (t = c.type ∧ r = 0 ∧ c.lenOk n)) ↔
      6 ≤ t.toNat ∨ r ≠ 0 ∨ (t = 0 ∧ n = 0) ∨ (t ≠ 0 ∧ n ≠ 0) := by
  rcases EvtOp.type_cover t with ht | ⟨c, -, rfl⟩
  · exact iff_of_true (fun c h => c.type_bound (h.1 ▸ ht)) (.inl ht)
  · have hrow : (∀ d : EvtOp, ¬ (c.type = d.type ∧ r = 0 ∧ d.lenOk n)) ↔ ¬ (r = 0 ∧ c.lenOk n) :=
      ⟨fun h hc => h c ⟨rfl, hc⟩, fun h d ⟨hd, hf⟩ => h (EvtOp.type_injective hd ▸ hf)⟩
    have hbound := c.type_bound
    rw [hrow, EvtOp.lenOk_iff]
    tauto

/-- Settles O8: a descriptor no row selects does not decode, and what does not decode is dropped. -/
theorem reservedDescriptorsDropped : Obligations.ReservedDescriptorsDropped := by
  unfold Obligations.ReservedDescriptorsDropped
  have hnone : ∀ e, isEventWord e = false ↔ ∀ c : EvtOp, ¬ c.selects e = true := fun e => by
    rw [← Bool.not_eq_true, isEventWord_iff, not_exists]
  refine ⟨fun e => ?_, fun e b p s h => deliver_evt_undecoded p (fun i hdec => ?_) s⟩
  · simp only [hnone, EvtOp.selects_iff]
    exact EvtOp.no_row_iff (evtType e) (evtReserved e) (evtLen e)
  · obtain ⟨c, hsel, -⟩ := decode_evt_eq_ok.1 hdec
    exact (hnone e).1 h c hsel

end Sys2Proof
end

section
/-! PROOFS. R65: SETCH, SETUNI, GETUNI and GETCH do what their expansions do (30_encoding.md section 8). -/

namespace Sys2Proof.Machine

theorem toNat_sub_one {a : Field} (h : 1 ≤ a.toNat) : (a - 1).toNat = slotIndex a := by
  rw [slotIndex]
  bv_omega

/-- SETCH stores one byte at the slot of its address (R68). -/
theorem execSetch_eq_execWrite (v : Byte) {a : Field} (s : State) (h : 1 ≤ a.toNat) :
    execSetch v a s = execWrite 1 (a - 1) [v] s := by
  have hrange : addressOk a = offsetOk (a - 1) 1 := by
    rw [Bool.eq_iff_iff, addressOk_iff, offsetOk_iff, toNat_sub_one h, slotIndex, show (1 : Field).toNat = 1 from rfl]
    omega
  have hlen : [v].length = (1 : Field).toNat := rfl
  rw [execSetch, execWrite, if_pos hlen, hrange, toNat_sub_one h]
  rfl

theorem execSetuni_eq_execWrite {p : List Byte} (s : State) (h : p.length = 512) :
    execSetuni p s = execWrite 512 0 p s := by
  have hrange : offsetOk 0 512 = true := rfl
  have hlen : p.length = (512 : Field).toNat := h
  rw [execSetuni, execWrite, if_pos h, if_pos hlen, if_pos hrange]
  rfl

theorem execGetuni_eq_execGetrng (s : State) : execGetuni s = execGetrng 512 1 s := by
  rw [execGetrng, if_pos (by decide)]
  rfl

theorem execGetch_eq_execGetrng (a : Field) (s : State) : execGetch a s = execGetrng 1 a s := by
  have hrange : addressOk a = rangeOk a 1 := by
    rw [Bool.eq_iff_iff, addressOk_iff, rangeOk_iff, show (1 : Field).toNat = 1 from rfl]
    omega
  rw [execGetch, execGetrng, hrange]
  rfl

/-- Settles O27: each of the four makes the range check of its expansion and names the same slots. -/
theorem aliasesAgree : Obligations.AliasesAgree := by
  unfold Obligations.AliasesAgree
  exact ⟨fun v _ s => execSetch_eq_execWrite v s, fun _ => execSetuni_eq_execWrite, execGetuni_eq_execGetrng,
    execGetch_eq_execGetrng⟩

end Sys2Proof.Machine
end

section
/-! PROOFS. The commands that write the send buffer (40_framebuffer_write.md): their range checks in unbounded numbers
(R66, R70), their words and illegal forms, and what WRITE, SETCH and SETUNI leave in every slot (R67 to R69). -/

namespace Sys2Proof

open Sys2Proof.Machine

/-! ## Words and illegal forms -/

/-- R52: a packed word is the word of the number its fields add up to. -/
theorem packCmd_eq_ofNat {op : BitVec 4} {val : Byte} {b a : Field} {n : Nat}
    (h : op.toNat * 2 ^ 28 + val.toNat * 2 ^ 20 + b.toNat * 2 ^ 10 + a.toNat = n) :
    packCmd op val b a = BitVec.ofNat 32 n := by
  rw [← h, ← toNat_packCmd, BitVec.ofNat_toNat, BitVec.setWidth_eq]

/-- A transaction with the code of a command is refused unless the unused fields are 0 and the payload is as long as
that command's (R53, R55). -/
theorem answersIllegal_of_opcode {c : CmdOp} {w : CmdWord} {p : List Byte} (hop : wordOp w = c.opcode)
    (h : c.fieldsOk (wordVal w) (wordB w) (wordA w) → p.length ≠ c.payloadBytes (wordB w)) : AnswersIllegal w p := by
  refine fun params ok s => deliver_cmd_undecoded params (fun i hdec => ?_) ok s
  obtain ⟨d, hsel, hlen, -⟩ := decode_cmd_eq_ok.1 hdec
  obtain ⟨hop', hfields⟩ := CmdOp.selects_iff.1 hsel
  obtain rfl : c = d := CmdOp.opcode_injective (hop.symm.trans hop')
  exact h hfields (hlen.trans (payloadLength_of_selects hsel))

/-- A word whose three operand fields are 0 has no 1 in `W[27:0]` (R52). -/
theorem extract_operands_eq_zero {w : CmdWord} (hv : wordVal w = 0) (hb : wordB w = 0) (ha : wordA w = 0) :
    w.extractLsb' 0 28 = 0 := by
  have hcode : ∀ op : BitVec 4, (packCmd op 0 0 0).extractLsb' 0 28 = 0 := by decide
  rw [← packCmd_fields w, hv, hb, ha]
  exact hcode (wordOp w)

end Sys2Proof

namespace Sys2Proof.Machine

/-! ## Range checks -/

/-- R66: two 10-bit numbers add up in 11 bits without a carry out. -/
theorem toNat_zext11_add (x y : Field) : (zext11 x + zext11 y).toNat = x.toNat + y.toNat := by
  have hx := x.isLt
  have hy := y.isLt
  rw [BitVec.toNat_add_of_lt (by rw [toNat_zext11, toNat_zext11]; omega), toNat_zext11, toNat_zext11]

/-- R70: the end address of a run does not go below 1, so subtracting 1 borrows nothing. -/
theorem toNat_zext11_add_sub_one {x : Field} (y : Field) (hx : 1 ≤ x.toNat) :
    (zext11 x + zext11 y - 1).toNat = x.toNat + y.toNat - 1 := by
  have hone : (1 : BitVec 11) ≤ zext11 x + zext11 y := by
    rw [BitVec.le_def, toNat_zext11_add]
    exact hx.trans (Nat.le_add_right ..)
  rw [BitVec.toNat_sub_of_le hone, toNat_zext11_add]
  rfl

theorem slotIndex_lt_of_addressOk {a : Field} (h : addressOk a = true) : slotIndex a < 512 := by
  have ha := (addressOk_iff a).1 h
  rw [slotIndex]
  omega

/-- Settles O20: the 11-bit sums are the sums of the numbers, and the checks are their `↔` lemmas. -/
theorem rangeChecksDoNotWrap : Obligations.RangeChecksDoNotWrap := by
  unfold Obligations.RangeChecksDoNotWrap
  refine ⟨fun o l => ⟨toNat_zext11_add o l, ?_, ?_⟩, fun a => ⟨addressOk_iff a, slotIndex_lt_of_addressOk⟩,
    fun s c hs hc => ⟨toNat_zext11_add_sub_one c hs, ?_, ?_⟩, fun s c => ?_⟩
  · have ho := o.isLt
    have hl := l.isLt
    omega
  · rw [← Bool.not_eq_true, offsetOk_iff, Nat.not_le]
  · omega
  · have hs' := s.isLt
    have hc' := c.isLt
    omega
  · rw [← Bool.not_eq_true, rangeOk_iff]
    omega

/-! ## What a storing command does -/

/-- WRITE of a run that fits stores it from its offset on and answers OK (R67). -/
theorem execWrite_inRange {l o : Field} {p : List Byte} (s : State) (hlen : p.length = l.toNat)
    (h : o.toNat + l.toNat ≤ 512) :
    execWrite l o p s = answer { s with txslot := s.txslot.writeRun o.toNat p } [] := by
  rw [execWrite, if_pos hlen, if_pos ((offsetOk_iff o l).2 h)]

theorem execWrite_outOfRange {l o : Field} {p : List Byte} (s : State) (hlen : p.length = l.toNat)
    (h : o.toNat + l.toNat > 512) : execWrite l o p s = raise .outOfRange s := by
  rw [execWrite, if_pos hlen, if_neg (mt (offsetOk_iff o l).1 (by omega))]

/-- SETCH at a valid address stores its byte one slot below the address and answers OK (R68). -/
theorem execSetch_inRange (v : Byte) {a : Field} (s : State) (h : 1 ≤ a.toNat ∧ a.toNat ≤ 512) :
    execSetch v a s = answer { s with txslot := s.txslot.write (slotIndex a) v } [] := by
  rw [execSetch, if_pos ((addressOk_iff a).2 h)]

theorem execSetch_outOfRange (v : Byte) {a : Field} (s : State) (h : a.toNat < 1 ∨ a.toNat > 512) :
    execSetch v a s = raise .outOfRange s := by
  rw [execSetch, if_neg (mt (addressOk_iff a).1 (by omega))]

/-- SETUNI with a whole universe stores it from slot 0 on and answers OK (R69). -/
theorem execSetuni_whole {p : List Byte} (s : State) (h : p.length = 512) :
    execSetuni p s = answer { s with txslot := s.txslot.writeRun 0 p } [] := by
  rw [execSetuni, if_pos h]

/-- A run of writes reads back as the bytes stored. -/
theorem Memory.readRun_writeRun {m : Memory} (h : m.wf = true) {i : Nat} {bs : List Byte} (hb : i + bs.length ≤ 512) :
    (m.writeRun i bs).readRun i bs.length = bs := by
  refine List.ext_getElem (Memory.length_readRun ..) fun k hk hk' => Option.some.inj ?_
  have hin : i ≤ i + k ∧ i + k < i + bs.length := by omega
  rw [← List.getElem?_eq_getElem hk, Memory.getElem?_readRun _ _ _ _ hk', Memory.read_writeRun h hb, if_pos hin,
    Nat.add_sub_cancel_left, List.getD_eq_getElem _ _ hk']

/-! ## The three commands -/

/-- Settles O21: the range check is the unbounded one, and reading after a run of writes gives every slot. -/
theorem writeStoresItsRun : Obligations.WriteStoresItsRun := by
  unfold Obligations.WriteStoresItsRun
  refine ⟨fun l o p => ?_, fun w p hop hval => ?_,
    fun l o p s hlen hwf => ⟨execWrite_outOfRange s hlen, fun hrange => ?_⟩⟩
  · refine congrArg (Transaction.cmd · p) (packCmd_eq_ofNat ?_)
    bv_omega
  · exact answersIllegal_of_opcode (c := .write) hop fun hfields => absurd hfields hval
  · have hb : o.toNat + p.length ≤ 512 := hlen ▸ hrange
    exact ⟨_, execWrite_inRange s hlen hrange, rfl, Memory.wf_writeRun hwf hb, hlen ▸ Memory.read_writeRun hwf hb⟩

/-- Settles O22: the address check is the unbounded one, and one write changes one slot. -/
theorem setchStoresOneSlot : Obligations.SetchStoresOneSlot := by
  unfold Obligations.SetchStoresOneSlot
  refine ⟨fun v a => ?_, fun w p hop hb => ?_, fun v a s hwf => ⟨execSetch_outOfRange v s, fun haddr => ?_⟩⟩
  · refine congrArg (Transaction.cmd · []) (packCmd_eq_ofNat ?_)
    bv_omega
  · exact answersIllegal_of_opcode (c := .setch) hop fun hfields => absurd hfields hb
  · have hslot : slotIndex a < 512 := slotIndex_lt_of_addressOk ((addressOk_iff a).2 haddr)
    exact ⟨_, execSetch_inRange v s haddr, rfl, Memory.wf_write v hwf hslot, Memory.read_write hwf (slotIndex a) v⟩

/-- Settles O23: 512 bytes written from slot 0 on read back as they are. -/
theorem setuniReplacesTheUniverse : Obligations.SetuniReplacesTheUniverse := by
  unfold Obligations.SetuniReplacesTheUniverse
  refine ⟨fun p => ?_, fun w p hop hillegal => ?_, fun p s hlen hwf => ?_⟩
  · rfl
  · refine answersIllegal_of_opcode (c := .setuni) hop fun ⟨hv, hb, ha⟩ => ?_
    exact hillegal.resolve_left (not_not_intro (extract_operands_eq_zero hv hb ha))
  · have hb : 0 + p.length ≤ 512 := by omega
    exact ⟨_, execSetuni_whole s hlen, rfl, Memory.wf_writeRun hwf hb, hlen ▸ Memory.readRun_writeRun hwf hb⟩

end Sys2Proof.Machine
end

section
/-! PROOFS. The commands that read the receive buffer (41_framebuffer_read.md): their words and illegal forms, and the
bytes that GETUNI, GETRNG and GETCH return (R71 to R73). -/

namespace Sys2Proof

open Sys2Proof.Machine

/-- The fields `val` and `b` of a word are its bits `W[27:10]` (R52). -/
theorem extract_val_b (w : CmdWord) : w.extractLsb' 10 18 = wordVal w ++ wordB w := by
  refine BitVec.eq_of_toNat_eq ?_
  rw [toNat_append_add, toNat_wordVal, toNat_wordB, BitVec.extractLsb'_toNat, Nat.shiftRight_eq_div_pow]
  omega

end Sys2Proof

namespace Sys2Proof.Machine

/-! ## What a reading command answers -/

/-- GETRNG of a run inside the universe answers OK with the slots from `a - 1` on (R72). -/
theorem execGetrng_inRange {c a : Field} (s : State) (h : 1 ≤ a.toNat ∧ 1 ≤ c.toNat ∧ a.toNat + c.toNat - 1 ≤ 512) :
    execGetrng c a s = answer s (s.rxslot.readRun (slotIndex a) c.toNat) := by
  rw [execGetrng, if_pos ((rangeOk_iff a c).2 h)]

theorem execGetrng_outOfRange {c a : Field} (s : State)
    (h : a.toNat < 1 ∨ c.toNat < 1 ∨ a.toNat + c.toNat - 1 > 512) : execGetrng c a s = raise .outOfRange s := by
  rw [execGetrng, if_neg (mt (rangeOk_iff a c).1 (by omega))]

/-- GETCH at a valid address answers OK with the slot one below the address (R73). -/
theorem execGetch_inRange {a : Field} (s : State) (h : 1 ≤ a.toNat ∧ a.toNat ≤ 512) :
    execGetch a s = answer s [s.rxslot.read (slotIndex a)] := by
  rw [execGetch, if_pos ((addressOk_iff a).2 h)]

theorem execGetch_outOfRange {a : Field} (s : State) (h : a.toNat < 1 ∨ a.toNat > 512) :
    execGetch a s = raise .outOfRange s := by
  rw [execGetch, if_neg (mt (addressOk_iff a).1 (by omega))]

/-! ## The three commands -/

/-- Settles O24: the answer is the run of all 512 slots. -/
theorem getuniReturnsTheUniverse : Obligations.GetuniReturnsTheUniverse := by
  unfold Obligations.GetuniReturnsTheUniverse
  refine ⟨rfl, fun w p hop hillegal => ?_, fun s => ⟨s.rxslot.readRun 0 512, rfl, Memory.length_readRun .., ?_⟩⟩
  · exact answersIllegal_of_opcode (c := .getuni) hop fun ⟨hv, hb, ha⟩ =>
      absurd (extract_operands_eq_zero hv hb ha) hillegal
  · intro k hk
    rw [Memory.getElem?_readRun _ _ _ _ hk, Nat.zero_add]

/-- Settles O25: the range check is the unbounded one, and the answer is the run of `c` slots from `a - 1` on. -/
theorem getrngReturnsItsRun : Obligations.GetrngReturnsItsRun := by
  unfold Obligations.GetrngReturnsItsRun
  refine ⟨fun c a => ?_, fun w p hop hval => ?_,
    fun c a s => ⟨execGetrng_outOfRange s, fun ha hc hend => ?_⟩⟩
  · refine congrArg (Transaction.cmd · []) (packCmd_eq_ofNat ?_)
    bv_omega
  · exact answersIllegal_of_opcode (c := .getrng) hop fun hfields => absurd hfields hval
  · exact ⟨_, execGetrng_inRange s ⟨ha, hc, hend⟩, Memory.length_readRun .., Memory.getElem?_readRun _ _ _⟩

/-- Settles O26: the address check is the unbounded one, and the answer is the slot of the address. -/
theorem getchReturnsItsSlot : Obligations.GetchReturnsItsSlot := by
  unfold Obligations.GetchReturnsItsSlot
  refine ⟨fun a => ?_, fun w p hop hillegal => ?_, fun a s => ⟨execGetch_outOfRange s, execGetch_inRange s⟩⟩
  · refine congrArg (Transaction.cmd · []) (packCmd_eq_ofNat ?_)
    bv_omega
  · refine answersIllegal_of_opcode (c := .getch) hop fun ⟨hv, hb⟩ => absurd ?_ hillegal
    rw [extract_val_b, hv, hb]
    rfl

end Sys2Proof.Machine
end

section
/-! PROOFS. The labels of the transmitter, state by state (42_transmitter.md R75 to R83): `TxDone`, the Tick, the internal
steps and `TxReady`. -/

namespace Sys2Proof.Machine

/-! ## What a label does in a given state -/

section Labels
variable {s : State}

theorem TxState.timed_iff {x : TxState} : x.timed = true ↔ x = .brk ∨ x = .mab ∨ x = .gap := by
  cases x <;> simp [TxState.timed]

theorem TxState.timed_eq_false_iff {x : TxState} : x.timed = false ↔ x ≠ .brk ∧ x ≠ .mab ∧ x ≠ .gap := by
  cases x <;> simp [TxState.timed]

theorem State.txDone_waitIdle (p : Params) (ok : Bool) (hx : s.txstate = .waitIdle) :
    s.txDone p ok = s.assertBreak p := by
  simp only [State.txDone, hx]

theorem State.txDone_flush (p : Params) (ok : Bool) (hx : s.txstate = .flush) : s.txDone p ok = s.startGap p := by
  simp only [State.txDone, hx]

/-- `TxDone` is ignored where the block does not wait for it (D21). -/
theorem State.txDone_ignored (p : Params) (ok : Bool) (hw : s.txstate ≠ .waitIdle) (hf : s.txstate ≠ .flush) :
    s.txDone p ok = s := by
  rcases s.txDone_cases p ok with ⟨hx, -⟩ | ⟨hx, -⟩ | ⟨-, -, e⟩
  · exact absurd hx hw
  · exact absurd hx hf
  · exact e

theorem State.awaitsDone_iff : s.awaitsDone = true ↔ s.txstate = .waitIdle ∨ s.txstate = .flush := by
  unfold State.awaitsDone
  cases s.txstate <;> simp

theorem State.tick_timed (h : s.txstate.timed = true) : s.tick = { s with tmr := s.tmr - 1 } := by
  rw [State.tick_eq, if_pos h]

/-- A Tick acts in no untimed state, and on no timer that has run out (R76). -/
theorem State.tick_idle (h : s.tmr = 0 ∨ s.txstate.timed = false) : s.tick = s := by
  rw [State.tick, if_neg]
  rcases h with h | h <;> simp [h]

theorem State.internal_brk (p : Params) (hx : s.txstate = .brk) (h0 : s.tmr = 0) : s.internal p = s.endBreak p := by
  simp only [State.internal, hx, if_pos h0]

theorem State.internal_mab (p : Params) (hx : s.txstate = .mab) (h0 : s.tmr = 0) : s.internal p = s.takeSnapshot := by
  simp only [State.internal, hx, if_pos h0]

theorem State.internal_gap (p : Params) (hx : s.txstate = .gap) (h0 : s.tmr = 0) : s.internal p = s.endGap := by
  simp only [State.internal, hx, if_pos h0]

/-- No internal step is enabled before the timer of a timed state has run out, nor in an untimed state. -/
theorem State.internal_unexpired (p : Params) (h : s.txstate.timed = true → s.tmr ≠ 0) : s.internal p = s := by
  rcases s.internal_cases p with ⟨hx, h0, -⟩ | ⟨hx, h0, -⟩ | ⟨hx, h0, -⟩ | ⟨-, e⟩
  · exact absurd h0 (h (by rw [hx]; rfl))
  · exact absurd h0 (h (by rw [hx]; rfl))
  · exact absurd h0 (h (by rw [hx]; rfl))
  · exact e

theorem txReady_sc (p : Params) (hx : s.txstate = .sc) : txReady p s = .next (s.handStartCode p) := by
  simp only [txReady, hx]

theorem txReady_data (p : Params) (hx : s.txstate = .data) : txReady p s = handPayload s := by
  simp only [txReady, hx]

/-- `TxReady` is ignored where nothing is offered (D21). -/
theorem txReady_ignored (p : Params) (hsc : s.txstate ≠ .sc) (hdata : s.txstate ≠ .data) : txReady p s = .next s := by
  rcases txReady_cases p s with ⟨hx, -⟩ | ⟨hx, -⟩ | ⟨-, -, e⟩
  · exact absurd hx hsc
  · exact absurd hx hdata
  · exact e

end Labels

/-! ## The obligations -/

/-- Settles O38, by the state in which `TxDone` comes. -/
theorem doneStartsBreakOrGap : Obligations.DoneStartsBreakOrGap := by
  unfold Obligations.DoneStartsBreakOrGap
  intro p ok s
  refine ⟨fun hx => ?waitIdle, fun hx => ?flush, fun hw hf => ?ignored, State.awaitsDone_iff⟩
  case waitIdle =>
    rw [deliver, State.txDone_waitIdle p ok hx]
    rfl
  case flush =>
    rw [deliver, State.txDone_flush p ok hx]
    rfl
  case ignored => rw [deliver, State.txDone_ignored p ok hw hf]

/-- Settles O39; outside Transmit the invariant says that the transmitter is off (R23 (2)), which is no timed state. -/
theorem tickCountsDown : Obligations.TickCountsDown := by
  unfold Obligations.TickCountsDown
  intro p s
  refine ⟨fun hx _ => ?counts, fun h => ?idle, fun hinv hm => ?mode⟩
  case counts => rw [deliver, State.tick_timed (TxState.timed_iff.2 hx)]
  case idle => rw [deliver, State.tick_idle (h.imp_right TxState.timed_eq_false_iff.2)]
  case mode =>
    have hoff : s.txstate = .off := hinv.txOff.2 hm
    rw [deliver, State.tick_idle (.inr (by rw [hoff]; rfl))]

/-- Settles O40, by the timed state whose timer has run out. -/
theorem expiryStepsAdvanceTheCycle : Obligations.ExpiryStepsAdvanceTheCycle := by
  unfold Obligations.ExpiryStepsAdvanceTheCycle
  intro p s
  refine ⟨fun hx h0 => ?brk, fun hx h0 => ?mab, fun hx h0 => ?gap⟩
  case brk =>
    rw [deliver, State.internal_brk p hx h0]
    rfl
  case mab =>
    rw [deliver, State.internal_mab p hx h0]
    rfl
  case gap =>
    rw [deliver, State.internal_gap p hx h0]
    rfl

/-- Settles O57: in neither case does a timed state have its timer at 0, which every internal step needs. -/
theorem unexpiredSlotChangesNothing : Obligations.UnexpiredSlotChangesNothing := by
  unfold Obligations.UnexpiredSlotChangesNothing
  intro p s h
  have hidle : s.txstate.timed = true → s.tmr ≠ 0 := by
    intro ht
    rcases h with hpos | hx
    · exact Nat.pos_iff_ne_zero.1 hpos
    · rw [TxState.timed_eq_false_iff.2 hx] at ht
      cases ht
  rw [deliver, State.internal_unexpired p hidle]

/-- Settles O41, by the state in which `TxReady` comes; the index has room for the payload byte, so adding 1 to it does
not wrap. -/
theorem readyHandsOverTheByteOffered : Obligations.ReadyHandsOverTheByteOffered := by
  unfold Obligations.ReadyHandsOverTheByteOffered
  intro p s
  refine ⟨fun hx => ?sc, fun hx hi => ?data, fun hsc hdata => ?ignored⟩
  case sc =>
    refine ⟨by simp only [State.offered, hx], ?_⟩
    rw [deliver, txReady_sc p hx]
    rfl
  case data =>
    have hsucc : (s.txidx + 1).toNat = s.txidx.toNat + 1 := BitVec.toNat_add_of_lt (by simp; omega)
    have hlast : s.txidx + 1 = 512#10 ↔ (s.txidx + 1).toNat = 512 := BitVec.toNat_inj.symm
    refine ⟨{ s with
      txidx := s.txidx + 1
      txstate := if (s.txidx + 1).toNat = 512 then .flush else .data
      trace := s.trace ++ [.txByte (s.txshadow.read s.txidx.toNat)] }, ?_, by simp only [State.offered, hx], hsucc, rfl⟩
    rw [deliver, txReady_data p hx, handPayload_next (by omega)]
    simp only [hlast]
  case ignored =>
    refine ⟨State.offered_eq_none p hsc hdata, ?_⟩
    rw [deliver, txReady_ignored p hsc hdata]

end Sys2Proof.Machine
end

section
/-! PROOFS. R86: one undisturbed transmit cycle, phase by phase: the break, the mark, the 513 bytes and the gap. -/

namespace Sys2Proof.Machine

/-! ## Runs in phases -/

/-- `n` Ticks, and the slot of the internal step that they enable in a timed state whose timer holds `n`. -/
def expiryLabels (n : Nat) : List Label := List.replicate n Label.tick ++ [Label.internal]

/-- The schedule of a cycle in its four phases: break, mark, frame and gap. -/
theorem cycleLabels_eq (p : Params) (ok ok' : Bool) :
    cycleLabels p ok ok' =
      (Label.txDone ok :: expiryLabels p.tBreak) ++ (expiryLabels p.tMab ++
        (List.replicate 513 Label.txReady ++ (Label.txDone ok' :: expiryLabels p.tGap))) := by
  simp only [cycleLabels, expiryLabels, List.append_assoc, List.cons_append, List.nil_append]

section Phases
variable {p : Params} {s t u : State}

theorem runLabels_cons {l : Label} (h : deliver p l s = .next t) (ls : List Label) :
    runLabels p (l :: ls) s = runLabels p ls t := by
  rw [runLabels, h]

theorem runLabels_trans {as bs : List Label} (h : runLabels p as s = .next t) (h' : runLabels p bs t = .next u) :
    runLabels p (as ++ bs) s = .next u := by
  rw [runLabels_append, h]
  exact h'

/-- A timed state counts its timer down and takes its internal step (R76). -/
theorem runLabels_expiry (p : Params) (ht : s.txstate.timed = true) :
    runLabels p (expiryLabels s.tmr) s = .next ({ s with tmr := 0 }.internal p) := by
  have hticks := runLabels_ticks p ht le_rfl
  rw [Nat.sub_self] at hticks
  exact runLabels_trans hticks (runLabels_cons rfl [])

/-- The break (R75 to R77). -/
theorem runLabels_break (p : Params) (ok : Bool) (hx : s.txstate = .waitIdle) :
    runLabels p (.txDone ok :: expiryLabels p.tBreak) s = .next { s with
      brk := false, txstate := .mab, tmr := p.tMab, trace := s.trace ++ [.brkOn] ++ [.brkOff] } := by
  have hdone : deliver p (.txDone ok) s = .next (s.assertBreak p) := by rw [deliver, State.txDone_waitIdle p ok hx]
  rw [runLabels_cons hdone]
  exact runLabels_expiry p (s := s.assertBreak p) rfl

/-- The mark after break, up to the snapshot point (R76, R78). -/
theorem runLabels_mark (p : Params) (hx : s.txstate = .mab) :
    runLabels p (expiryLabels s.tmr) s = .next { s with
      txshadow := s.txslot, txidx := 0, txstate := .sc, tmr := 0 } := by
  rw [runLabels_expiry p (by rw [hx]; rfl), State.internal_mab (s := { s with tmr := 0 }) p hx rfl]
  rfl

/-- The start code and the 512 slots of the snapshot (R79, R80). -/
theorem runLabels_frame (p : Params) (hx : s.txstate = .sc) (hi : s.txidx = 0) :
    runLabels p (List.replicate 513 .txReady) s = .next { s with
      txstate := .flush, txidx := 512
      trace := s.trace ++ (p.startCode :: s.txshadow.readRun 0 512).map .txByte } := by
  have hstart : deliver p .txReady s = .next (s.handStartCode p) := by rw [deliver, txReady_sc p hx]
  rw [List.replicate_succ, runLabels_cons hstart,
    runLabels_readies p (s := s.handStartCode p) (n := 512) rfl (by simp [hi]) (by omega)]
  simp only [State.handStartCode_txidx, State.handStartCode_txshadow, State.handStartCode_trace, hi,
    List.map_cons, List.append_assoc, List.singleton_append]
  rfl

/-- The gap (R81, R76, R82). -/
theorem runLabels_gap (p : Params) (ok : Bool) (hx : s.txstate = .flush) :
    runLabels p (.txDone ok :: expiryLabels p.tGap) s = .next { s with txstate := .waitIdle, tmr := 0 } := by
  have hdone : deliver p (.txDone ok) s = .next (s.startGap p) := by rw [deliver, State.txDone_flush p ok hx]
  rw [runLabels_cons hdone]
  exact runLabels_expiry p (s := s.startGap p) rfl

end Phases

/-! ## The obligation -/

/-- Settles O43: the four phases of the cycle one after the other, each from the state the one before it leaves. -/
theorem oneCycleOutputTrace : Obligations.OneCycleOutputTrace := by
  unfold Obligations.OneCycleOutputTrace
  intro p ok ok' s hx
  have hrun := runLabels_trans (runLabels_break p ok hx) <| runLabels_trans (runLabels_mark p rfl) <|
    runLabels_trans (runLabels_frame p rfl rfl) (runLabels_gap p ok' rfl)
  rw [← cycleLabels_eq] at hrun
  refine ⟨_, hrun, ?_, ?_⟩
  · simp only [List.append_assoc, List.cons_append, List.nil_append]
  · simp only [hx]

end Sys2Proof.Machine
end

section
/-! PROOFS. What a label that leaves the session alone can do to the transmitter, in one inversion; from it the fixed
order of the cycle (R74), the shortest time a timed state lasts (R87) and the stalled link (R84). -/

namespace Sys2Proof.Machine

/-! ## One transition of the transmitter -/

/-- The transmitter, the mode and the direction level are in `t` as they are in `s`. -/
structure LineKept (s t : State) : Prop where
  txstate : t.txstate = s.txstate
  txidx : t.txidx = s.txidx
  txshadow : t.txshadow = s.txshadow
  brk : t.brk = s.brk
  tmr : t.tmr = s.tmr
  mode : t.mode = s.mode
  dir : t.dir = s.dir

/-- What a label but Reset, START and STOP can make of the transmitter: it keeps it as it is, or it is one of the
numbered steps of the cycle (R75 to R82). -/
inductive TransmitterEffect (p : Params) (s : State) : Label → State → Prop where
  | kept (l : Label) {t : State} (h : LineKept s t) : TransmitterEffect p s l t
  | counted (ht : s.txstate.timed = true) : TransmitterEffect p s .tick { s with tmr := s.tmr - 1 }
  | breakBegun (ok : Bool) (hx : s.txstate = .waitIdle) : TransmitterEffect p s (.txDone ok) (s.assertBreak p)
  | gapBegun (ok : Bool) (hx : s.txstate = .flush) : TransmitterEffect p s (.txDone ok) (s.startGap p)
  | startCode (hx : s.txstate = .sc) : TransmitterEffect p s .txReady (s.handStartCode p)
  | payload (hx : s.txstate = .data) (x : TxState) (hx' : x = .data ∨ x = .flush) (i : Field) (tr : List Output) :
      TransmitterEffect p s .txReady { s with trace := tr, txidx := i, txstate := x }
  | breakEnded (hx : s.txstate = .brk) (h0 : s.tmr = 0) : TransmitterEffect p s .internal (s.endBreak p)
  | snapshot (hx : s.txstate = .mab) (h0 : s.tmr = 0) : TransmitterEffect p s .internal s.takeSnapshot
  | gapEnded (hx : s.txstate = .gap) (h0 : s.tmr = 0) : TransmitterEffect p s .internal s.endGap

section Line
variable {p : Params} {s t u : State} {l : Label}

theorem LineKept.refl (s : State) : LineKept s s := ⟨rfl, rfl, rfl, rfl, rfl, rfl, rfl⟩

theorem LineKept.trans (h : LineKept s t) (h' : LineKept t u) : LineKept s u where
  txstate := h'.txstate.trans h.txstate
  txidx := h'.txidx.trans h.txidx
  txshadow := h'.txshadow.trans h.txshadow
  brk := h'.brk.trans h.brk
  tmr := h'.tmr.trans h.tmr
  mode := h'.mode.trans h.mode
  dir := h'.dir.trans h.dir

/-- A command but START and STOP acts on the send buffer and the trace alone (R8). -/
theorem lineKept_of_cmd {w : CmdWord} {payload : List Byte} {ok : Bool}
    (hk : (Label.cmd w payload ok).keepsSession = true) (h : deliver p (.cmd w payload ok) s = .next t) :
    LineKept s t := by
  rw [deliver_cmd_keepsSession hk h]
  exact ⟨rfl, rfl, rfl, rfl, rfl, rfl, rfl⟩

/-- An event acts on the receiver and the trace alone (R88). -/
theorem lineKept_of_evt {e : EvtWord} {b : List Byte} (h : deliver p (.evt e b) s = .next t) : LineKept s t := by
  have he := deliver_evt_effect p e b s
  rw [h] at he
  rcases he.frame with rfl | ⟨-, e'⟩
  · exact .refl t
  · rw [e']
    exact ⟨rfl, rfl, rfl, rfl, rfl, rfl, rfl⟩

theorem State.tick_effect (p : Params) (s : State) : TransmitterEffect p s .tick s.tick := by
  by_cases ht : s.txstate.timed = true
  · rw [State.tick_timed ht]
    exact .counted ht
  · rw [State.tick_idle (.inr (Bool.eq_false_iff.2 ht))]
    exact .kept _ (.refl s)

theorem txReady_effect (h : txReady p s = .next t) : TransmitterEffect p s .txReady t := by
  rcases txReady_cases p s with ⟨hx, e⟩ | ⟨hx, e⟩ | ⟨-, -, e⟩
  · rw [e] at h
    cases h
    exact .startCode hx
  · rcases handPayload_cases s with ⟨-, e'⟩ | ⟨-, e'⟩
    · rw [e, e'] at h
      cases h
      exact .payload hx _ (by split <;> simp) _ _
    · rw [e, e'] at h
      cases h
  · rw [e] at h
    cases h
    exact .kept _ (.refl s)

theorem State.txDone_effect (p : Params) (ok : Bool) (s : State) :
    TransmitterEffect p s (.txDone ok) (s.txDone p ok) := by
  rcases s.txDone_cases p ok with ⟨hx, e⟩ | ⟨hx, e⟩ | ⟨-, -, e⟩ <;> rw [e]
  · exact .breakBegun ok hx
  · exact .gapBegun ok hx
  · exact .kept _ (.refl s)

theorem State.internal_effect (p : Params) (s : State) : TransmitterEffect p s .internal (s.internal p) := by
  rcases s.internal_cases p with ⟨hx, h0, e⟩ | ⟨hx, h0, e⟩ | ⟨hx, h0, e⟩ | ⟨-, e⟩ <;> rw [e]
  · exact .breakEnded hx h0
  · exact .snapshot hx h0
  · exact .gapEnded hx h0
  · exact .kept _ (.refl s)

/-- Every label but Reset, START and STOP has the effect of a step of the transmitter. -/
theorem deliver_transmitterEffect (hk : l.keepsSession = true) (h : deliver p l s = .next t) :
    TransmitterEffect p s l t := by
  cases l with
  | cmd w payload ok => exact .kept _ (lineKept_of_cmd hk h)
  | evt e b => exact .kept _ (lineKept_of_evt h)
  | tick =>
    cases h
    exact s.tick_effect p
  | txReady => exact txReady_effect h
  | txDone ok =>
    cases h
    exact s.txDone_effect p ok
  | reset => exact absurd hk Bool.false_ne_true
  | internal =>
    cases h
    exact s.internal_effect p

/-! ## The order of the cycle (R74) -/

theorem TransmitterEffect.order (h : TransmitterEffect p s l t) :
    (t.txstate = s.txstate ∨ t.txstate = s.txstate.following) ∧ t.mode = s.mode ∧ t.dir = s.dir := by
  cases h with
  | kept _ h => exact ⟨.inl h.txstate, h.mode, h.dir⟩
  | counted => exact ⟨.inl rfl, rfl, rfl⟩
  | breakBegun _ hx => exact ⟨.inr (by rw [hx]; rfl), rfl, rfl⟩
  | gapBegun _ hx => exact ⟨.inr (by rw [hx]; rfl), rfl, rfl⟩
  | startCode hx => exact ⟨.inr (by rw [hx]; rfl), rfl, rfl⟩
  | payload hx _ hx' => exact ⟨by rw [hx]; exact hx', rfl, rfl⟩
  | breakEnded hx => exact ⟨.inr (by rw [hx]; rfl), rfl, rfl⟩
  | snapshot hx => exact ⟨.inr (by rw [hx]; rfl), rfl, rfl⟩
  | gapEnded hx => exact ⟨.inr (by rw [hx]; rfl), rfl, rfl⟩

/-! ## The timed states (R87) -/

/-- While its timer runs a timed state is kept, and only a Tick takes 1 from the timer. -/
theorem TransmitterEffect.timer (h : TransmitterEffect p s l t) (ht : s.txstate.timed = true) :
    s.tmr = 0 ∨ (t.txstate = s.txstate ∧ s.tmr ≤ t.tmr + [l].count .tick) := by
  have untimed {x : TxState} (hx : s.txstate = x) (hf : x.timed = false) : False := by
    rw [hx, hf] at ht
    cases ht
  cases h with
  | kept _ h => exact .inr ⟨h.txstate, by rw [h.tmr]; exact Nat.le_add_right _ _⟩
  | counted => exact .inr ⟨rfl, Nat.le_add_of_sub_le le_rfl⟩
  | breakBegun _ hx => exact (untimed hx rfl).elim
  | gapBegun _ hx => exact (untimed hx rfl).elim
  | startCode hx => exact (untimed hx rfl).elim
  | payload hx => exact (untimed hx rfl).elim
  | breakEnded _ h0 => exact .inl h0
  | snapshot _ h0 => exact .inl h0
  | gapEnded _ h0 => exact .inl h0

/-- A run that has left a timed state holds at least as many Ticks as the timer held at its start. -/
theorem runLabels_timer {ls : List Label} (ht : s.txstate.timed = true) (hk : ∀ l ∈ ls, l.keepsSession = true)
    (hrun : runLabels p ls s = .next t) (hleft : t.txstate ≠ s.txstate) : s.tmr ≤ ls.count .tick := by
  induction ls generalizing s with
  | nil =>
    cases hrun
    exact absurd rfl hleft
  | cons l ls ih =>
    obtain ⟨u, hu, hrun⟩ := runLabels_cons_next hrun
    obtain ⟨hkl, hkls⟩ := List.forall_mem_cons.1 hk
    rcases (deliver_transmitterEffect hkl hu).timer ht with h0 | ⟨hx, hle⟩
    · omega
    · have hrest : u.tmr ≤ ls.count .tick := ih (hx ▸ ht) hkls hrun (hx ▸ hleft)
      rw [← List.singleton_append, List.count_append]
      omega

/-- The same of a run whose first label enters the timed state and loads its timer. -/
theorem runLabels_loaded {ls : List Label} (hu : deliver p l s = .next u) (ht : u.txstate.timed = true)
    (hk : ∀ l ∈ ls, l.keepsSession = true) (hrun : runLabels p (l :: ls) s = .next t)
    (hleft : t.txstate ≠ u.txstate) : u.tmr ≤ ls.count .tick := by
  rw [runLabels_cons hu] at hrun
  exact runLabels_timer ht hk hrun hleft

/-! ## The stalled link (R84) -/

/-- In state `x` the transmitter waits for a label of LINKTX, and `l` is another one. -/
def Stalls (x : TxState) (l : Label) : Prop :=
  (x = .sc ∨ x = .data) ∧ l ≠ .txReady ∨ (x = .waitIdle ∨ x = .flush) ∧ ∀ ok, l ≠ .txDone ok

theorem Stalls.untimed {x : TxState} (h : Stalls x l) : x.timed = false := by
  rcases h with ⟨rfl | rfl, -⟩ | ⟨rfl | rfl, -⟩ <;> rfl

theorem TransmitterEffect.lineKept (h : TransmitterEffect p s l t) (hst : Stalls s.txstate l) : LineKept s t := by
  have hut := hst.untimed
  cases h with
  | kept _ h => exact h
  | counted ht => simp [ht] at hut
  | breakBegun _ hx => simp [Stalls, hx] at hst
  | gapBegun _ hx => simp [Stalls, hx] at hst
  | startCode hx => simp [Stalls, hx] at hst
  | payload hx => simp [Stalls, hx] at hst
  | breakEnded hx => simp [TxState.timed, hx] at hut
  | snapshot hx => simp [TxState.timed, hx] at hut
  | gapEnded hx => simp [TxState.timed, hx] at hut

/-- What every transition by a label of a kind keeps, a run over such labels keeps. -/
theorem runLabels_keeps {P : State → Prop} {Q : Label → Prop}
    (hstep : ∀ l s t, Q l → P s → deliver p l s = .next t → P t) {ls : List Label} (hls : ∀ l ∈ ls, Q l) (hs : P s)
    (hrun : runLabels p ls s = .next t) : P t := by
  induction ls generalizing s with
  | nil =>
    cases hrun
    exact hs
  | cons l ls ih =>
    obtain ⟨u, hu, hrun⟩ := runLabels_cons_next hrun
    obtain ⟨hl, hls⟩ := List.forall_mem_cons.1 hls
    exact ih hls (hstep l s u hl hs hu) hrun

theorem runLabels_lineKept {ls : List Label} (hk : ∀ l ∈ ls, l.keepsSession = true)
    (hst : ∀ l ∈ ls, Stalls s.txstate l) (hrun : runLabels p ls s = .next t) : LineKept s t := by
  refine runLabels_keeps (P := LineKept s) (Q := fun l => l.keepsSession = true ∧ Stalls s.txstate l)
    (fun l u v ⟨hkl, hstl⟩ hu hv => ?_) (fun l hl => ⟨hk l hl, hst l hl⟩) (.refl s) hrun
  rw [← hu.txstate] at hstl
  exact hu.trans ((deliver_transmitterEffect hkl hv).lineKept hstl)

theorem Label.ne_reset_of_keepsSession (hk : l.keepsSession = true) : l ≠ .reset := by
  rintro rfl
  exact absurd hk Bool.false_ne_true

/-- Without commands the send buffer stays as it is (R8). -/
theorem runLabels_txslot {ls : List Label} (hk : ∀ l ∈ ls, l.keepsSession = true)
    (hcmd : ∀ l ∈ ls, ∀ w payload ok, l ≠ .cmd w payload ok) (hrun : runLabels p ls s = .next t) :
    t.txslot = s.txslot := by
  refine runLabels_keeps (P := fun u => u.txslot = s.txslot)
    (Q := fun l => l.keepsSession = true ∧ ∀ w payload ok, l ≠ .cmd w payload ok)
    (fun l u v ⟨hkl, hl⟩ hu hv => ?_) (fun l hl => ⟨hk l hl, hcmd l hl⟩) rfl hrun
  obtain ⟨htx, -, -⟩ := bufferOwnership p l u v hv (Label.ne_reset_of_keepsSession hkl)
  by_contra hne
  obtain ⟨w, payload, ok, e⟩ := htx fun e => hne (e.trans hu)
  exact hl w payload ok e

/-- In Transmit mode the receive buffer stays as it is, and the mode is Transmit to the end (R10, R74). -/
theorem runLabels_rxslot {ls : List Label} (hk : ∀ l ∈ ls, l.keepsSession = true) (hm : s.mode = .transmit)
    (hrun : runLabels p ls s = .next t) : t.rxslot = s.rxslot := by
  refine (runLabels_keeps (P := fun u => u.rxslot = s.rxslot ∧ u.mode = .transmit)
    (Q := fun l => l.keepsSession = true) (fun l u v hkl ⟨hu, hmu⟩ hv => ?_) hk ⟨rfl, hm⟩ hrun).1
  obtain ⟨-, hrx, -⟩ := bufferOwnership p l u v hv (Label.ne_reset_of_keepsSession hkl)
  obtain ⟨-, hmode, -⟩ := (deliver_transmitterEffect hkl hv).order
  refine ⟨?_, hmode.trans hmu⟩
  by_contra hne
  obtain ⟨hr, -⟩ := hrx fun e => hne (e.trans hu)
  rw [hmu] at hr
  cases hr

end Line

/-! ## The obligations -/

/-- Settles O45: the label that enters the timed state loads the timer, and the run has to count it down. -/
theorem timedStatesLastTheirTicks : Obligations.TimedStatesLastTheirTicks := by
  unfold Obligations.TimedStatesLastTheirTicks
  intro p ls s t hk
  refine ⟨fun ok hx hrun hleft => ?brk, fun hx h0 hrun hleft => ?mab, fun ok hx hrun hleft => ?gap,
    fun hp => ?bounds⟩
  case brk => exact runLabels_loaded (congrArg _ (State.txDone_waitIdle p ok hx)) rfl hk hrun hleft
  case mab => exact runLabels_loaded (congrArg _ (State.internal_brk p hx h0)) rfl hk hrun hleft
  case gap => exact runLabels_loaded (congrArg _ (State.txDone_flush p ok hx)) rfl hk hrun hleft
  case bounds =>
    obtain ⟨-, hbreak, -, hmab, -⟩ := (Params.legal_iff p).1 hp
    exact ⟨hbreak, hmab⟩

/-- Settles O42, by the inversion of what each label can do to the transmitter. -/
theorem cycleOrderIsFixed : Obligations.CycleOrderIsFixed := by
  unfold Obligations.CycleOrderIsFixed
  exact fun p l s t hk h => (deliver_transmitterEffect hk h).order

/-- Settles O46, by induction on the run: in a stalled state no label but the one that does not come moves the
transmitter. -/
theorem stalledLinkChangesNothing : Obligations.StalledLinkChangesNothing := by
  unfold Obligations.StalledLinkChangesNothing
  intro p ls s t hk hrun hstalled
  have hst : ∀ l ∈ ls, Stalls s.txstate l := by
    intro l hl
    rcases hstalled with ⟨hx, hls⟩ | ⟨hx, hls⟩
    · exact .inl ⟨hx, hls l hl⟩
    · exact .inr ⟨hx, hls l hl⟩
  have h := runLabels_lineKept hk hst hrun
  exact ⟨h.txstate, h.txidx, h.txshadow, h.brk, h.tmr, fun hcmd => runLabels_txslot hk hcmd hrun,
    fun hm => runLabels_rxslot hk hm hrun⟩

end Sys2Proof.Machine
end

section
/-! PROOFS. R74: the line never depends on the receive buffer. -/

namespace Sys2Proof.Machine

/-- `s` with another receive buffer. -/
def State.withRxslot (m : Memory) (s : State) : State := { s with rxslot := m }

/-- The two outcomes are the same but for the receive buffer they leave behind. -/
def SameButRxslot (o o' : Host.Outcome State Fault Refusal) : Prop :=
  ∃ m, o' = mapNext (State.withRxslot m) o

/-- The receive guard reads the mode alone. -/
theorem SameButRxslot.whenReceiving {m : Memory} {s : State} {act act' : Host.Outcome State Fault Refusal}
    (h : SameButRxslot act act') : SameButRxslot (whenReceiving s act) (whenReceiving (s.withRxslot m) act') := by
  by_cases hm : s.mode = .receive
  · rwa [whenReceiving_acts act hm, whenReceiving_acts act' (s := s.withRxslot m) hm]
  · rw [whenReceiving_drops act hm, whenReceiving_drops act' (s := s.withRxslot m) hm]
    exact ⟨m, rfl⟩

/-- `consume` writes the receive buffer and does not read it (R91). -/
theorem State.consume_sameButRxslot (m : Memory) (s : State) (r : List Byte) :
    SameButRxslot (s.consume r) ((s.withRxslot m).consume r) := by
  rcases s.consume_cases r with ⟨hc, e⟩ | ⟨hc, e⟩ <;> rw [e]
  · rw [State.consume_next (s := s.withRxslot m) r hc]
    exact ⟨m.writeRun s.cursor.toNat (r.take (512 - s.cursor.toNat)), rfl⟩
  · rw [State.consume_fault (s := s.withRxslot m) r hc]
    exact ⟨m, rfl⟩

theorem execEvData_sameButRxslot (n : Field) (b : List Byte) (m : Memory) (s : State) :
    SameButRxslot (execEvData n b s) (execEvData n b (s.withRxslot m)) := by
  refine .whenReceiving ?_
  split
  · cases b with
    | nil => exact ⟨m, rfl⟩
    | cons first rest =>
      rw [show (s.withRxslot m).dstate = s.dstate from rfl]
      cases s.dstate with
      | breakDetected =>
        dsimp only
        split
        · exact State.consume_sameButRxslot m { s with cursor := 0, dstate := .receiving } rest
        · exact ⟨m, rfl⟩
      | receiving => exact s.consume_sameButRxslot m (first :: rest)
      | idle => exact ⟨m, rfl⟩
      | frameDone => exact ⟨m, rfl⟩
      | linkError => exact ⟨m, rfl⟩
  · exact ⟨m, rfl⟩

theorem execEvBreak_sameButRxslot (m : Memory) (s : State) :
    SameButRxslot (execEvBreak s) (execEvBreak (s.withRxslot m)) := by
  refine .whenReceiving ⟨m, ?_⟩
  rw [show (s.withRxslot m).dstate = s.dstate from rfl]
  cases s.dstate <;> rfl

/-- The four condition errors are one operation (R92 to R95). -/
theorem linkFault_sameButRxslot (m : Memory) (s : State) :
    SameButRxslot (whenReceiving s (.next s.linkFault))
      (whenReceiving (s.withRxslot m) (.next (s.withRxslot m).linkFault)) := by
  refine .whenReceiving ⟨m, ?_⟩
  rw [State.linkFault_eq, State.linkFault_eq]
  rfl

theorem exec_buildEvt_sameButRxslot (c : EvtOp) (e : EvtWord) (b : List Byte) (m : Memory) (s : State) :
    SameButRxslot (exec (buildEvt c e b) s) (exec (buildEvt c e b) (s.withRxslot m)) := by
  cases c with
  | data => exact execEvData_sameButRxslot _ b m s
  | brk => exact execEvBreak_sameButRxslot m s
  | ferr => exact linkFault_sameButRxslot m s
  | perr => exact linkFault_sameButRxslot m s
  | ovf => exact linkFault_sameButRxslot m s
  | bfull => exact linkFault_sameButRxslot m s

theorem deliver_evt_sameButRxslot (p : Params) (e : EvtWord) (b : List Byte) (m : Memory) (s : State) :
    SameButRxslot (deliver p (.evt e b) s) (deliver p (.evt e b) (s.withRxslot m)) := by
  by_cases h : ∃ i, decode (.evt e b) = .ok i
  · obtain ⟨i, hd⟩ := h
    obtain ⟨c, rfl⟩ := decode_evt_eq_buildEvt hd
    rw [deliver_evt_decoded p hd, deliver_evt_decoded p hd]
    exact exec_buildEvt_sameButRxslot c e b m s
  · rw [deliver_evt_undecoded p (not_exists.1 h), deliver_evt_undecoded p (not_exists.1 h)]
    exact ⟨m, rfl⟩

theorem txReady_sameButRxslot (p : Params) (m : Memory) (s : State) :
    SameButRxslot (txReady p s) (txReady p (s.withRxslot m)) := by
  refine ⟨m, ?_⟩
  rcases txReady_cases p s with ⟨hx, e⟩ | ⟨hx, e⟩ | ⟨hsc, hdata, e⟩ <;> rw [e]
  · exact txReady_sc (s := s.withRxslot m) p hx
  · rw [txReady_data (s := s.withRxslot m) p hx]
    rcases handPayload_cases s with ⟨hi, e'⟩ | ⟨hi, e'⟩ <;> rw [e']
    · exact handPayload_next (s := s.withRxslot m) hi
    · exact if_neg (Nat.not_lt.2 hi)
  · exact txReady_ignored (s := s.withRxslot m) p hsc hdata

theorem State.txDone_withRxslot (p : Params) (ok : Bool) (m : Memory) (s : State) :
    (s.withRxslot m).txDone p ok = (s.txDone p ok).withRxslot m := by
  rcases s.txDone_cases p ok with ⟨hx, e⟩ | ⟨hx, e⟩ | ⟨hw, hf, e⟩ <;> rw [e]
  · exact State.txDone_waitIdle (s := s.withRxslot m) p ok hx
  · exact State.txDone_flush (s := s.withRxslot m) p ok hx
  · exact State.txDone_ignored (s := s.withRxslot m) p ok hw hf

theorem State.internal_withRxslot (p : Params) (m : Memory) (s : State) :
    (s.withRxslot m).internal p = (s.internal p).withRxslot m := by
  rcases s.internal_cases p with ⟨hx, h0, e⟩ | ⟨hx, h0, e⟩ | ⟨hx, h0, e⟩ | ⟨h, e⟩ <;> rw [e]
  · exact State.internal_brk (s := s.withRxslot m) p hx h0
  · exact State.internal_mab (s := s.withRxslot m) p hx h0
  · exact State.internal_gap (s := s.withRxslot m) p hx h0
  · exact State.internal_unexpired (s := s.withRxslot m) p h

/-- A label that is no command does the same whatever the receive buffer holds; Reset leaves the same one, empty. -/
theorem deliver_sameButRxslot (p : Params) {l : Label} (hcmd : ∀ w payload ok, l ≠ .cmd w payload ok) (m : Memory)
    (s : State) : SameButRxslot (deliver p l s) (deliver p l (s.withRxslot m)) := by
  cases l with
  | cmd w payload ok => exact absurd rfl (hcmd w payload ok)
  | evt e b => exact deliver_evt_sameButRxslot p e b m s
  | tick =>
    refine ⟨m, ?_⟩
    rw [deliver, deliver, State.tick_eq, State.tick_eq]
    rfl
  | txReady => exact txReady_sameButRxslot p m s
  | txDone ok => exact ⟨m, congrArg _ (s.txDone_withRxslot p ok m)⟩
  | reset =>
    refine ⟨[], ?_⟩
    rw [deliver, deliver, State.applyReset_eq, State.applyReset_eq]
    rfl
  | internal => exact ⟨m, congrArg _ (s.internal_withRxslot p m)⟩

/-- Settles O32: the transition with another receive buffer is the same one with another receive buffer at its end. -/
theorem lineIgnoresReceiveBuffer : Obligations.LineIgnoresReceiveBuffer := by
  unfold Obligations.LineIgnoresReceiveBuffer
  intro p l s t m hcmd ht
  obtain ⟨m', e⟩ := deliver_sameButRxslot p hcmd m s
  rw [ht, mapNext_next] at e
  exact ⟨t.withRxslot m', e, rfl⟩

end Sys2Proof.Machine
end

section
/-! PROOFS. The receiver decoder (43_receiver.md R88 to R100): what each event does, and which slots of the receive buffer
it changes. -/

namespace Sys2Proof.Machine

/-! ## The effect of each event in Receive mode -/

theorem wellFormed_evData_iff {n : Field} {b : List Byte} :
    (Instr.evData n b).wellFormed = true ↔ b.length = n.toNat ∧ 1 ≤ n.toNat := by
  simp only [Instr.wellFormed, Bool.and_eq_true, beq_iff_eq, decide_eq_true_eq]

/-- The decoder at the start of a frame: Receiving, with slot 0 next (R90, BreakDetected). -/
def State.startFrame (s : State) : State := { s with cursor := 0, dstate := .receiving }

@[simp] theorem State.startFrame_rxslot (s : State) : s.startFrame.rxslot = s.rxslot := rfl
@[simp] theorem State.startFrame_mode (s : State) : s.startFrame.mode = s.mode := rfl
@[simp] theorem State.startFrame_dstate (s : State) : s.startFrame.dstate = .receiving := rfl
@[simp] theorem State.toNat_startFrame_cursor (s : State) : s.startFrame.cursor.toNat = 0 := rfl

section Events
variable {n : Field} {b rest : List Byte} {s t u : State}

/-- Data is discarded in Idle, FrameDone and LinkError (R90). -/
theorem exec_evData_discards (n : Field) (b : List Byte)
    (hd : s.dstate = .idle ∨ s.dstate = .frameDone ∨ s.dstate = .linkError) : exec (.evData n b) s = .next s := by
  by_cases hm : s.mode = .receive
  · rw [exec]
    unfold execEvData
    rw [whenReceiving_acts _ hm]
    split
    · cases b with
      | nil => rfl
      | cons first rest => rcases hd with hd | hd | hd <;> rw [hd] <;> rfl
    · rfl
  · exact whenReceiving_drops _ hm

/-- In BreakDetected a first byte 0x00 starts the frame: the cursor is 0 and the bytes behind it are payload (R90). -/
theorem exec_evData_startCode (hwf : (Instr.evData n (0x00 :: rest)).wellFormed = true) (hm : s.mode = .receive)
    (hd : s.dstate = .breakDetected) :
    exec (.evData n (0x00 :: rest)) s = s.startFrame.consume rest := by
  obtain ⟨hlen, -⟩ := wellFormed_evData_iff.1 hwf
  rw [exec, execEvData, whenReceiving_acts _ hm, if_pos hlen, hd]
  exact if_pos rfl

/-- In BreakDetected any other first byte ends the frame at once (R90, R99). -/
theorem exec_evData_alternate (hwf : (Instr.evData n b).wellFormed = true) (hm : s.mode = .receive)
    (hd : s.dstate = .breakDetected) (hfirst : b.head? ≠ some 0x00) :
    exec (.evData n b) s = .next { s with dstate := .frameDone } := by
  obtain ⟨hlen, hpos⟩ := wellFormed_evData_iff.1 hwf
  cases b with
  | nil =>
    rw [List.length_nil] at hlen
    omega
  | cons first rest =>
    rw [exec, execEvData, whenReceiving_acts _ hm, if_pos hlen, hd]
    exact if_neg fun h => hfirst (congrArg some h)

/-- A break in Receiving ends the short frame (R89). -/
theorem exec_evBreak_receiving (hm : s.mode = .receive) (hd : s.dstate = .receiving) :
    exec .evBreak s = .next { s with dstate := .frameDone } := by
  rw [exec, execEvBreak, whenReceiving_acts _ hm, hd]

/-- A break anywhere else re-arms the decoder (R89). -/
theorem exec_evBreak_rearms (hm : s.mode = .receive) (hd : s.dstate ≠ .receiving) :
    exec .evBreak s = .next s.rearm := by
  rw [exec, execEvBreak, whenReceiving_acts _ hm]
  cases h : s.dstate with
  | receiving => exact absurd h hd
  | idle | breakDetected | frameDone | linkError => rfl

/-- The four condition errors are one operation (R92 to R96). -/
theorem exec_conditionError {i : Instr} (hi : i = .evFerr ∨ i = .evPerr ∨ i = .evOvf ∨ i = .evBfull) (s : State) :
    exec i s = whenReceiving s (.next s.linkFault) := by
  rcases hi with rfl | rfl | rfl | rfl <;> rfl

/-- What the receive guard lets through is one of the two: nothing, or the act. -/
theorem whenReceiving_next_cases (h : whenReceiving s (.next u) = .next t) : t = s ∨ t = u := by
  by_cases hm : s.mode = .receive
  · rw [whenReceiving_acts _ hm] at h
    exact .inr (Host.Outcome.next.inj h).symm
  · rw [whenReceiving_drops _ hm] at h
    exact .inl (Host.Outcome.next.inj h).symm

/-- A break never changes the receive buffer (R89, R100). -/
theorem exec_evBreak_rxslot (h : exec .evBreak s = .next t) : t.rxslot = s.rxslot := by
  by_cases hm : s.mode = .receive
  · by_cases hd : s.dstate = .receiving
    · rw [exec_evBreak_receiving hm hd] at h
      cases h
      rfl
    · rw [exec_evBreak_rearms hm hd] at h
      cases h
      rfl
  · rw [exec, execEvBreak, whenReceiving_drops _ hm] at h
    cases h
    rfl

/-- No event but Data changes the receive buffer (R100). -/
theorem exec_buildEvt_rxslot {c : EvtOp} (hc : c ≠ .data) {e : EvtWord} (h : exec (buildEvt c e b) s = .next t) :
    t.rxslot = s.rxslot := by
  cases c with
  | data => exact absurd rfl hc
  | brk => exact exec_evBreak_rxslot h
  | ferr | perr | ovf | bfull =>
    rcases whenReceiving_next_cases h with rfl | rfl
    · rfl
    · exact s.linkFault_rxslot

end Events

/-! ## What `consume` leaves behind -/

/-- `t` is `s` in Receiving after the payload `r` (R91): the bytes that fit stand from the old cursor up to the new one,
which is at most 512, where the frame is done; nothing else is changed. -/
structure Consumed (s : State) (r : List Byte) (t : State) : Prop where
  frame : t = { s with rxslot := t.rxslot, cursor := t.cursor, dstate := t.dstate }
  wf : t.rxslot.wf = true
  cursor : t.cursor.toNat = min (s.cursor.toNat + r.length) 512
  dstate : t.dstate = if t.cursor = 512 then .frameDone else .receiving
  slots : ∀ j, t.rxslot.read j =
    if s.cursor.toNat ≤ j ∧ j < t.cursor.toNat then r.getD (j - s.cursor.toNat) 0 else s.rxslot.read j

section Consume
variable {s t : State} {r : List Byte}

theorem State.consume_consumed (r : List Byte) (hd : s.dstate = .receiving) (hc : s.cursor.toNat ≤ 512)
    (hwf : s.rxslot.wf = true) : ∃ t, s.consume r = .next t ∧ Consumed s r t := by
  have hcur : (BitVec.ofNat 10 (s.cursor.toNat + min r.length (512 - s.cursor.toNat))).toNat =
      s.cursor.toNat + min r.length (512 - s.cursor.toNat) := toNat_ofNat_cursor (by omega)
  refine ⟨_, State.consume_next r hc, rfl, Memory.wf_consume hwf _ r hc, ?cursor, ?dstate, fun j => ?slots⟩
  case cursor =>
    dsimp only
    omega
  case dstate =>
    have hfull : BitVec.ofNat 10 (s.cursor.toNat + min r.length (512 - s.cursor.toNat)) = 512 ↔
        512 ≤ s.cursor.toNat + r.length := by
      rw [← BitVec.toNat_inj, hcur, show (512 : Field).toNat = 512 from rfl]
      omega
    simp only [hfull, hd]
  case slots =>
    dsimp only
    rw [hcur]
    exact Memory.read_consume hwf _ r hc j

/-- A slot that changes is below 512 and holds the payload byte that falls on it (R91, R100). -/
theorem Consumed.changed_slot (h : Consumed s r t) {j : Nat} (hne : t.rxslot.read j ≠ s.rxslot.read j) :
    s.cursor.toNat ≤ j ∧ r[j - s.cursor.toNat]? = some (t.rxslot.read j) ∧ j < 512 := by
  have hcur := h.cursor
  rw [h.slots j] at hne ⊢
  split at hne
  case isTrue hj =>
    rw [if_pos hj, List.getD_eq_getElem _ _ (by omega)]
    exact ⟨hj.1, List.getElem?_eq_getElem _, by omega⟩
  case isFalse => exact absurd rfl hne

theorem State.consume_changed_slot (hd : s.dstate = .receiving) (hwf : s.rxslot.wf = true) (h : s.consume r = .next t)
    {j : Nat} (hne : t.rxslot.read j ≠ s.rxslot.read j) :
    s.cursor.toNat ≤ j ∧ r[j - s.cursor.toNat]? = some (t.rxslot.read j) ∧ j < 512 := by
  rcases s.consume_cases r with ⟨hc, -⟩ | ⟨-, e⟩
  · obtain ⟨u, hu, hcons⟩ := State.consume_consumed r hd hc hwf
    rw [h] at hu
    cases hu
    exact hcons.changed_slot hne
  · rw [h] at e
    cases e

/-- A slot that a Data event changes holds the payload byte that falls on it (R90, R91). -/
theorem exec_evData_changed_slot {n : Field} {b : List Byte} (hwf : (Instr.evData n b).wellFormed = true)
    (hm : s.mode = .receive) (hmem : s.rxslot.wf = true) (h : exec (.evData n b) s = .next t) {j : Nat}
    (hne : t.rxslot.read j ≠ s.rxslot.read j) :
    ((s.dstate = .receiving ∧ s.cursor.toNat ≤ j ∧ b[j - s.cursor.toNat]? = some (t.rxslot.read j)) ∨
      (s.dstate = .breakDetected ∧ b.head? = some 0x00 ∧ b[j + 1]? = some (t.rxslot.read j))) ∧ j < 512 := by
  have hdiscards (hd : s.dstate = .idle ∨ s.dstate = .frameDone ∨ s.dstate = .linkError) : t = s := by
    rw [exec_evData_discards n b hd] at h
    exact (Host.Outcome.next.inj h).symm
  cases hd : s.dstate with
  | receiving =>
    rw [exec_evData_receiving hwf hm hd] at h
    obtain ⟨hle, hbyte, hlt⟩ := State.consume_changed_slot hd hmem h hne
    exact ⟨.inl ⟨rfl, hle, hbyte⟩, hlt⟩
  | breakDetected =>
    by_cases hfirst : b.head? = some 0x00
    · obtain ⟨rest, rfl⟩ := List.head?_eq_some_iff.1 hfirst
      rw [exec_evData_startCode hwf hm hd] at h
      obtain ⟨-, hbyte, hlt⟩ := State.consume_changed_slot s.startFrame_dstate hmem h hne
      exact ⟨.inr ⟨rfl, hfirst, hbyte⟩, hlt⟩
    · rw [exec_evData_alternate hwf hm hd hfirst] at h
      cases h
      exact absurd rfl hne
  | idle => exact absurd (by rw [hdiscards (.inl hd)]) hne
  | frameDone => exact absurd (by rw [hdiscards (.inr (.inl hd))]) hne
  | linkError => exact absurd (by rw [hdiscards (.inr (.inr hd))]) hne

end Consume

/-! ## The obligations -/

/-- Settles O50: the discarded events, the alternate start code, and the two ways to consume. -/
theorem dataFillsTheReceiveBuffer : Obligations.DataFillsTheReceiveBuffer := by
  unfold Obligations.DataFillsTheReceiveBuffer
  refine ⟨fun n b => ?encoding, fun n b s hwf hm => ⟨exec_evData_discards n b, exec_evData_alternate hwf hm,
    fun hd hfirst hmem => ?started, fun hd hcur hmem => ?continued⟩, fun n b s hm => whenReceiving_drops _ hm⟩
  case encoding =>
    have hn : packEvt 0 0 n = BitVec.ofNat 16 n.toNat := by
      have hlt := n.isLt
      apply BitVec.eq_of_toNat_eq
      simp only [toNat_packEvt, BitVec.ofNat_eq_ofNat, BitVec.toNat_ofNat]
      omega
    rw [encode, hn]
  case started =>
    obtain ⟨rest, rfl⟩ := List.head?_eq_some_iff.1 hfirst
    obtain ⟨hlen, -⟩ := wellFormed_evData_iff.1 hwf
    rw [List.length_cons] at hlen
    obtain ⟨t, ht, h⟩ := State.consume_consumed rest s.startFrame_dstate (Nat.zero_le _) hmem
    have hcur : t.cursor.toNat = min (n.toNat - 1) 512 := by
      rw [h.cursor, State.toNat_startFrame_cursor]
      omega
    refine ⟨t, (exec_evData_startCode hwf hm hd).trans ht, h.frame, h.wf, hcur, h.dstate, fun j => ?_⟩
    simpa [hcur] using h.slots j
  case continued =>
    obtain ⟨hlen, -⟩ := wellFormed_evData_iff.1 hwf
    obtain ⟨t, ht, h⟩ := State.consume_consumed b hd (by omega) hmem
    rw [exec_evData_receiving hwf hm hd, ← hlen]
    exact ⟨t, ht, h.frame, h.wf, h.cursor, h.dstate, h.slots⟩

/-- Settles O52: of the labels but Reset only an event changes the receive buffer, of the events only Data, and Data
only by the payload it writes. -/
theorem noZeroFillNoRollback : Obligations.NoZeroFillNoRollback := by
  unfold Obligations.NoZeroFillNoRollback
  refine ⟨fun p l s t hreset hmem ht j hne => ?slot, fun p s => ⟨_, rfl, fun j => ?cleared⟩⟩
  case slot =>
    have hrx : t.rxslot ≠ s.rxslot := fun h => hne (by rw [h])
    obtain ⟨-, hevent, -⟩ := bufferOwnership p l s t ht hreset
    obtain ⟨hm, e, b, rfl⟩ := hevent hrx
    by_cases hdec : ∃ i, decode (.evt e b) = .ok i
    · obtain ⟨i, hdec⟩ := hdec
      obtain ⟨c, hsel, hlen, rfl⟩ := decode_evt_eq_ok.1 hdec
      rw [deliver_evt_decoded p hdec] at ht
      by_cases hc : c = .data
      · subst hc
        obtain ⟨hstored, hj⟩ := exec_evData_changed_slot (buildEvt_wellFormed hsel hlen) hm hmem ht hne
        exact ⟨hm, evtLen e, b, ⟨e, b, rfl, hdec⟩, hstored, hj⟩
      · exact absurd (exec_buildEvt_rxslot hc ht) hrx
    · rw [deliver_evt_undecoded p (not_exists.1 hdec)] at ht
      cases ht
      exact absurd rfl hrx
  case cleared =>
    rw [State.applyReset_rxslot]
    exact Memory.read_nil j

/-- Settles O48, by the inversion of what an event can do. -/
theorem eventsDroppedOutsideReceive : Obligations.EventsDroppedOutsideReceive := by
  unfold Obligations.EventsDroppedOutsideReceive
  exact fun p e b s hm => (deliver_evt_effect p e b s).eq_next_of_not_receive hm

/-- Settles O49: a break ends the frame in Receiving and re-arms the decoder from every other state. -/
theorem breakRearmsOrEndsFrame : Obligations.BreakRearmsOrEndsFrame := by
  unfold Obligations.BreakRearmsOrEndsFrame
  exact ⟨rfl, fun s hm => ⟨exec_evBreak_receiving hm, exec_evBreak_rearms hm⟩, fun s hm => whenReceiving_drops _ hm⟩

/-- Settles O51: the four condition errors are one operation, behind the receive guard. -/
theorem conditionErrorsAreLinkFaults : Obligations.ConditionErrorsAreLinkFaults := by
  unfold Obligations.ConditionErrorsAreLinkFaults
  refine ⟨rfl, rfl, rfl, rfl, fun i s hi => ?_⟩
  rw [exec_conditionError hi]
  refine ⟨fun hm hd => ?_, fun hm hd => ?_, whenReceiving_drops _⟩
  · rw [whenReceiving_acts _ hm, State.linkFault_eq, if_pos hd, ← hd]
  · rw [whenReceiving_acts _ hm, State.linkFault_eq, if_neg hd]

end Sys2Proof.Machine
end

section
/-! PROOFS. A received frame reads back: a stream of Data events is consumed alike however it is cut (43_receiver.md R90,
R91, R98). -/

namespace Sys2Proof.Machine

/-! ## Consuming a stream in pieces -/

section Pieces
variable {s t : State} {r : List Byte}

/-- Once the buffer is full, further bytes of the frame make no difference (R91, R98). -/
theorem State.consume_append_of_full (r' : List Byte) (hc : s.cursor.toNat ≤ 512)
    (hfull : 512 ≤ s.cursor.toNat + r.length) : s.consume (r ++ r') = s.consume r := by
  have htake : (r ++ r').take (512 - s.cursor.toNat) = r.take (512 - s.cursor.toNat) :=
    List.take_append_of_le_length (by omega)
  have hmin : min (r ++ r').length (512 - s.cursor.toNat) = min r.length (512 - s.cursor.toNat) := by
    rw [List.length_append]
    omega
  have hdone : 512 ≤ s.cursor.toNat + (r ++ r').length := by
    rw [List.length_append]
    omega
  rw [State.consume_next _ hc, State.consume_next _ hc, htake, hmin, if_pos hfull, if_pos hdone]

/-- While there is room, the bytes are consumed from where the ones before them end. -/
theorem State.consume_append_of_room (r' : List Byte) (hroom : s.cursor.toNat + r.length < 512)
    (h : s.consume r = .next t) : s.consume (r ++ r') = t.consume r' := by
  rw [State.consume_next r (by omega), List.take_of_length_le (by omega), Nat.min_eq_left (by omega),
    if_neg (by omega)] at h
  cases h
  have hcur : (BitVec.ofNat 10 (s.cursor.toNat + r.length)).toNat = s.cursor.toNat + r.length :=
    toNat_ofNat_cursor (by omega)
  have htake : (r ++ r').take (512 - s.cursor.toNat) = r ++ r'.take (512 - (s.cursor.toNat + r.length)) := by
    rw [List.take_append, List.take_of_length_le (by omega), Nat.sub_sub]
  have hmin : s.cursor.toNat + min (r.length + r'.length) (512 - s.cursor.toNat) =
      s.cursor.toNat + r.length + min r'.length (512 - (s.cursor.toNat + r.length)) := by omega
  rw [State.consume_next _ (by omega), State.consume_next _ (by dsimp only; omega), htake, Memory.writeRun_append]
  dsimp only
  rw [hcur, List.length_append, hmin, ← Nat.add_assoc]

/-- A Data event that goes on with a stream consumed so far as `r` (in Receiving, or in FrameDone once the buffer is
full) leaves the block as if its bytes had come with `r` (R90, R98). -/
theorem exec_evData_continues {n : Field} {b : List Byte} (hwf : (Instr.evData n b).wellFormed = true)
    (hm : s.mode = .receive) (hd : s.dstate = .receiving) (hc : s.cursor.toNat ≤ 512) (h : s.consume r = .next t) :
    exec (.evData n b) t = s.consume (r ++ b) := by
  rcases Nat.lt_or_ge (s.cursor.toNat + r.length) 512 with hroom | hfull
  · rw [State.consume_append_of_room b hroom h]
    rw [State.consume_next r hc, if_neg (by omega)] at h
    cases h
    exact exec_evData_receiving hwf hm hd
  · rw [State.consume_append_of_full b hc hfull, h]
    rw [State.consume_next r hc, if_pos hfull] at h
    cases h
    exact exec_evData_discards n b (.inr (.inl rfl))

end Pieces

/-! ## A stream cut into Data events -/

/-- The label of a Data event that carries `b`. -/
def dataLabel (b : List Byte) : Label := labelOf (.evData (BitVec.ofNat 10 b.length) b) true

/-- `b` fits a Data event (R59). -/
def FitsDataEvent (b : List Byte) : Prop := 1 ≤ b.length ∧ b.length ≤ 1023

/-- A well-formed event acts at the receive port by its meaning. -/
theorem deliver_labelOf_evt (p : Params) {i : Instr} {e : EvtWord} {b : List Byte} (henc : encode i = .evt e b)
    (hwf : i.wellFormed = true) (ok : Bool) (s : State) : deliver p (labelOf i ok) s = exec i s := by
  have hdec : decode (.evt e b) = .ok i := henc ▸ decodeOfEncode i hwf
  rw [labelOf, henc]
  exact deliver_evt_decoded p hdec s

section Stream
variable {s t : State} {r : List Byte}

theorem FitsDataEvent.wellFormed {b : List Byte} (h : FitsDataEvent b) :
    (Instr.evData (BitVec.ofNat 10 b.length) b).wellFormed = true := by
  obtain ⟨hpos, hle⟩ := h
  have hn : (BitVec.ofNat 10 b.length).toNat = b.length := by
    rw [BitVec.toNat_ofNat, Nat.mod_eq_of_lt (by omega)]
  rw [wellFormed_evData_iff, hn]
  exact ⟨rfl, hpos⟩

theorem deliver_dataLabel (p : Params) {b : List Byte} (h : FitsDataEvent b) (s : State) :
    deliver p (dataLabel b) s = exec (.evData (BitVec.ofNat 10 b.length) b) s :=
  deliver_labelOf_evt p rfl h.wellFormed true s

/-- Data events that go on with a stream consumed so far as `r` leave the block as if all their bytes had come with
`r`, however they are cut. -/
theorem runLabels_dataLabels (p : Params) (hm : s.mode = .receive) (hd : s.dstate = .receiving)
    (hc : s.cursor.toNat ≤ 512) {chunks : List (List Byte)} (hfit : ∀ b ∈ chunks, FitsDataEvent b)
    (h : s.consume r = .next t) : runLabels p (chunks.map dataLabel) t = s.consume (r ++ chunks.flatten) := by
  induction chunks generalizing r t with
  | nil => rw [List.flatten_nil, List.append_nil, h, List.map_nil, runLabels]
  | cons b chunks ih =>
    obtain ⟨hb, hfit⟩ := List.forall_mem_cons.1 hfit
    have hnext := State.consume_next (r ++ b) hc
    have hdel := (deliver_dataLabel p hb t).trans (exec_evData_continues hb.wellFormed hm hd hc h)
    rw [List.map_cons, runLabels_cons (hdel.trans hnext), ih hfit hnext, List.flatten_cons, List.append_assoc]

/-- Data events in BreakDetected whose bytes begin with the standard start code consume what comes behind it, however
they are cut. -/
theorem runLabels_dataLabels_startCode (p : Params) (hm : s.mode = .receive) (hd : s.dstate = .breakDetected)
    {chunks : List (List Byte)} (hfit : ∀ b ∈ chunks, FitsDataEvent b) (hstream : chunks.flatten = 0x00 :: r) :
    runLabels p (chunks.map dataLabel) s = s.startFrame.consume r := by
  cases chunks with
  | nil => cases hstream
  | cons b chunks =>
    obtain ⟨hb, hchunks⟩ := List.forall_mem_cons.1 hfit
    cases b with
    | nil => exact absurd hb.1 (by decide)
    | cons first rest =>
      rw [List.flatten_cons, List.cons_append] at hstream
      obtain ⟨rfl, rfl⟩ := List.cons.inj hstream
      have hdel := (deliver_dataLabel p hb s).trans (exec_evData_startCode hb.wellFormed hm hd)
      have hcur : s.startFrame.cursor.toNat ≤ 512 := Nat.zero_le _
      have hnext := State.consume_next rest hcur
      rw [List.map_cons, runLabels_cons (hdel.trans hnext)]
      exact runLabels_dataLabels p (s.startFrame_mode.trans hm) s.startFrame_dstate hcur hchunks hnext

/-- A whole universe consumed from slot 0 on, with any surplus behind it, is what the receive buffer then holds. -/
theorem State.consume_universe (s : State) {c : List Byte} (surplus : List Byte) (hc : c.length = 512) :
    s.startFrame.consume (c ++ surplus) = .next { s with
      rxslot := s.rxslot.writeRun 0 c, cursor := 512, dstate := .frameDone } := by
  have hcur : s.startFrame.cursor.toNat ≤ 512 := Nat.zero_le _
  have hfull : 512 ≤ s.startFrame.cursor.toNat + c.length := by rw [hc]; exact Nat.le_add_left ..
  rw [State.consume_append_of_full surplus hcur hfull, State.consume_next c hcur, if_pos hfull,
    State.toNat_startFrame_cursor, hc, List.take_of_length_le (by omega)]
  rfl

end Stream

/-! ## The obligation -/

/-- Settles O53: after the break the Data events consume the stream as one run, whatever the cut, and 512 bytes written
from slot 0 on read back. -/
theorem receivedFrameReadsBack : Obligations.ReceivedFrameReadsBack := by
  unfold Obligations.ReceivedFrameReadsBack
  intro p s c surplus chunks hm hd hwf hc hstream hfit
  have hbreak : deliver p (labelOf .evBreak true) s = .next s.rearm :=
    (deliver_labelOf_evt p rfl rfl true s).trans (exec_evBreak_rearms hm hd)
  have hrun := (runLabels_cons hbreak (chunks.map dataLabel)).trans
    (runLabels_dataLabels_startCode p (s.rearm_mode.trans hm) s.rearm_dstate hfit hstream)
  refine ⟨_, hrun.trans (s.rearm.consume_universe surplus hc), rfl, ?_⟩
  have hread := Memory.readRun_writeRun hwf (i := 0) (bs := c) (by omega)
  rwa [hc] at hread

end Sys2Proof.Machine
end

section
/-! PROOFS. The link control commands (44_link_controller.md): their words and illegal forms, and the state and the
outputs that START, STOP, FLUSH and GETSTAT leave (R102 to R106). -/

namespace Sys2Proof

open Sys2Proof.Machine

/-! ## Illegal forms -/

/-- A command whose row fixes all three operand fields at 0 is refused with a 1 in `W[27:0]` (R54, R55). -/
theorem answersIllegal_of_operands {c : CmdOp} {w : CmdWord} (p : List Byte) (hop : wordOp w = c.opcode)
    (hrow : ∀ {v b a}, c.fieldsOk v b a → v = 0 ∧ b = 0 ∧ a = 0) (h : w.extractLsb' 0 28 ≠ 0) : AnswersIllegal w p :=
  answersIllegal_of_opcode hop fun hfields =>
    have ⟨hv, hb, ha⟩ := hrow hfields
    absurd (extract_operands_eq_zero hv hb ha) h

/-- A word whose operand fields are 0 but for the mode bit has no 1 in `W[27:1]` (R52, R103). -/
theorem extract_unused_of_start_eq_zero {w : CmdWord} (hv : wordVal w = 0) (hb : wordB w = 0)
    (ha : wordA w = 0 ∨ wordA w = 1) : w.extractLsb' 1 27 = 0 := by
  have hcode : ∀ op : BitVec 4, (packCmd op 0 0 0).extractLsb' 1 27 = 0 ∧ (packCmd op 0 0 1).extractLsb' 1 27 = 0 := by
    decide
  obtain ⟨h0, h1⟩ := hcode (wordOp w)
  rw [← packCmd_fields w, hv, hb]
  rcases ha with ha | ha <;> rw [ha]
  · exact h0
  · exact h1

end Sys2Proof

namespace Sys2Proof.Machine

/-! ## Sessions -/

/-- What START and STOP leave, before the transmitter is started: the old worker is torn down (R102), the new mode and
its direction are set, and after the release of the break come the outputs given. -/
def State.openSession (s : State) (m : Mode) (l : Bool) (outs : List Output) : State :=
  { s with
    brk := false, txstate := .off, txidx := 0, tmr := 0, dstate := .idle, cursor := 0, mode := m, dir := l
    trace := s.trace ++ (if s.brk then [.brkOff] else []) ++ outs }

theorem execStop_eq (s : State) : execStop s = .next (s.openSession .stopped false [.dir false, .rsp .ok []]) := by
  rw [execStop, State.teardown_eq]
  simp [answer, State.respond, State.setMode, State.emit, State.openSession]

/-- The part that the three outcomes of START share (R103). -/
theorem State.teardown_linkCfg_setMode_respond (s : State) (m : Mode) (l : Bool) (st : Status) :
    ((s.teardown.emit .linkCfg).setMode m l).respond st [] = s.openSession m l [.linkCfg, .dir l, .rsp st []] := by
  rw [State.teardown_eq]
  simp [State.respond, State.setMode, State.emit, State.openSession]

theorem execStart_tx {s : State} (h : s.drvOk = true) : execStart .tx s =
    .next { s.openSession .transmit true [.linkCfg, .dir true, .rsp .ok []] with txstate := .waitIdle } := by
  unfold execStart
  rw [h, ← State.teardown_linkCfg_setMode_respond]
  rfl

theorem execStart_rx {s : State} (h : s.drvOk = true) : execStart .rx s =
    .next (s.openSession .receive false [.linkCfg, .dir false, .rsp .ok []]) := by
  unfold execStart
  rw [h, ← State.teardown_linkCfg_setMode_respond]
  rfl

theorem execStart_driverError (m : StartMode) {s : State} (h : s.drvOk = false) : execStart m s =
    .next (s.openSession .stopped false [.linkCfg, .dir false, .rsp .driverError []]) := by
  unfold execStart
  rw [h, ← State.teardown_linkCfg_setMode_respond]

/-- Settles O33: the three outcomes are three sessions, and the row of START leaves only the mode bit free. -/
theorem startInstallsOneWorker : Obligations.StartInstallsOneWorker := by
  unfold Obligations.StartInstallsOneWorker
  refine ⟨rfl, rfl, fun w p hop hillegal => ?_, fun s => execStart_tx, fun s => execStart_rx,
    fun m s => execStart_driverError m⟩
  exact answersIllegal_of_opcode (c := .start) hop fun ⟨hv, hb, ha⟩ =>
    absurd (extract_unused_of_start_eq_zero hv hb ha) hillegal

/-- Settles O34: STOP opens a session with no worker. -/
theorem stopStopsTheWorker : Obligations.StopStopsTheWorker := by
  unfold Obligations.StopStopsTheWorker
  exact ⟨rfl, fun w p hop => answersIllegal_of_operands (c := .stop) p hop id, execStop_eq⟩

/-! ## Status and flush -/

/-- The byte of GETSTAT is the number `DSTATE * 4 + MODE` (R106). -/
theorem toNat_statusByte (d : DState) (m : Mode) : (statusByte d m).toNat = d.code.toNat * 4 + m.code.toNat := by
  simp only [statusByte, toNat_append_add]
  simp

/-- Outside Receive the decoder is Idle, so the byte of GETSTAT is that of the mode alone (R23 (3), R106). -/
theorem Inv.statusByte_eq {p : Params} {s : State} {m : Mode} (h : Inv p s) (hm : s.mode = m) (hne : m ≠ .receive) :
    statusByte s.dstate s.mode = statusByte .idle m := by
  obtain ⟨hidle, -⟩ := h.rxIdle (hm ▸ hne)
  rw [hidle, hm]

/-- Settles O36: the byte is `DSTATE * 4 + MODE`, and the invariant keeps the decoder Idle outside Receive. -/
theorem getstatReportsModeAndDecoder : Obligations.GetstatReportsModeAndDecoder := by
  unfold Obligations.GetstatReportsModeAndDecoder
  refine ⟨rfl, fun w p hop => answersIllegal_of_operands (c := .getstat) p hop id,
    fun s => ⟨statusByte s.dstate s.mode, rfl, toNat_statusByte .., ?bound, fun p hinv => ⟨fun hm => ?stopped,
      fun hm => ?transmit, fun hm => ?receive⟩⟩⟩
  case bound =>
    rw [toNat_statusByte]
    omega
  case stopped => exact hinv.statusByte_eq hm (by decide)
  case transmit => exact hinv.statusByte_eq hm (by decide)
  case receive =>
    rw [hm]
    cases s.dstate <;> rfl

theorem execFlush_eq (s : State) : execFlush s = .next { s with trace := s.trace ++ [.rxFlush, .rsp .ok []] } := by
  simp [execFlush, answer, State.respond, State.emit]

/-- Settles O35: FLUSH emits its one output and answers. -/
theorem flushOnlyAsksTheLink : Obligations.FlushOnlyAsksTheLink := by
  unfold Obligations.FlushOnlyAsksTheLink
  exact ⟨rfl, fun w p hop => answersIllegal_of_operands (c := .flush) p hop id, execFlush_eq⟩

end Sys2Proof.Machine
end

section
/-! PROOFS. No transition is fatal (60_exceptions.md R114, R115), and while Stopped the link has no effect (R120). -/

namespace Sys2Proof.Machine

section NoStop
variable {p : Params} {s : State}

/-- No reachable state is one of those in which an index lies beyond the slots (R23 (5), (6), R114). -/
theorem deliver_completes (h : Inv p s) (l : Label) : ∃ t, deliver p l s = .next t := by
  have hstops := deliver_stops p l s
  cases ho : deliver p l s with
  | next t => exact ⟨t, rfl⟩
  | fault r =>
    rw [ho] at hstops
    rcases hstops with ⟨hx, hi⟩ | ⟨-, hd, hc⟩
    · exact absurd (h.dataRoom hx) (Nat.not_le.2 hi)
    · exact absurd h.cursorLe (Nat.not_le.2 hc)
  | refused r =>
    rw [ho] at hstops
    exact hstops.elim

theorem stepWith_completes (h : Inv p s) : ∃ t, stepWith p s = .next t := by
  cases hl : s.pending with
  | nil => exact ⟨_, stepWith_pending_nil p hl⟩
  | cons l rest =>
    rw [stepWith_pending_cons p hl]
    exact deliver_completes (h.outside rest s.drvOk s.trace) l

/-- A well-formed instruction is what some transaction of one of the two ports decodes to. -/
theorem exists_decode_eq_ok {i : Instr} (hwf : i.wellFormed = true) :
    (∃ w payload, decode (.cmd w payload) = .ok i) ∨ ∃ e b, decode (.evt e b) = .ok i := by
  have hdec := decodeOfEncode i hwf
  cases hx : encode i with
  | cmd w payload => exact .inl ⟨w, payload, hx ▸ hdec⟩
  | evt e b => exact .inr ⟨e, b, hx ▸ hdec⟩

/-- In any state that meets the invariant every well-formed instruction completes (R114, R120). -/
theorem exec_completes (h : Inv p s) {i : Instr} (hwf : i.wellFormed = true) : ∃ t, exec i s = .next t := by
  rcases exists_decode_eq_ok hwf with ⟨w, payload, hdec⟩ | ⟨e, b, hdec⟩
  · rw [show exec i s = _ from (deliver_cmd_decoded p hdec s.drvOk s).symm]
    exact deliver_completes h _
  · rw [← deliver_evt_decoded p hdec]
    exact deliver_completes h _

/-- While Stopped the transmitter is off and the decoder drops its events (R23 (2), R88, R120). -/
theorem deliver_stopped (h : Inv p s) (hm : s.mode = .stopped) {l : Label}
    (hcmd : ∀ w payload ok, l ≠ .cmd w payload ok) (hreset : l ≠ .reset) : deliver p l s = .next s := by
  have hoff : s.txstate = .off := h.txOff.2 (by rw [hm]; decide)
  cases l with
  | cmd w payload ok => exact absurd rfl (hcmd w payload ok)
  | evt e b => exact (deliver_evt_effect p e b s).eq_next_of_not_receive (by rw [hm]; decide)
  | tick => rw [deliver, State.tick_idle (.inr (by rw [hoff]; rfl))]
  | txReady => exact txReady_ignored p (by rw [hoff]; decide) (by rw [hoff]; decide)
  | txDone ok => rw [deliver, State.txDone_ignored p ok (by rw [hoff]; decide) (by rw [hoff]; decide)]
  | reset => exact absurd rfl hreset
  | internal => rw [deliver, State.internal_unexpired p (by rw [hoff]; exact nofun)]

end NoStop

/-! ## The obligations -/

/-- Settles O17: the invariant excludes the indexes at which a transition can stop. -/
theorem noTransitionStops : Obligations.NoTransitionStops := by
  unfold Obligations.NoTransitionStops
  exact fun p s _ h => ⟨deliver_completes h, stepWith_completes h⟩

/-- Settles O47: while Stopped the transmitter is off and events are dropped, and no instruction can stop. -/
theorem stoppedIgnoresTheLink : Obligations.StoppedIgnoresTheLink := by
  unfold Obligations.StoppedIgnoresTheLink
  exact fun p s h hm => ⟨fun l => deliver_stopped h hm, fun i => exec_completes h⟩

end Sys2Proof.Machine
end

section
/-! PROOFS. The answer to a command: one response, last, with the status and the data its rule gives, and none on any
other transition (30_encoding.md R57; 60_exceptions.md R108 to R112). -/

namespace Sys2Proof.Machine

/-! ## The response a command owes -/

/-- The response owed to a decoded command at a level of `drv_ok_i` (R57, R108 to R110). -/
inductive Response (i : Instr) (ok : Bool) : Status → List Byte → Prop where
  | outOfRange (hr : outOfRange i = true) : Response i ok .outOfRange []
  | driverError (hr : outOfRange i = false) (hs : isStart i = true) (hok : ok = false) : Response i ok .driverError []
  | ok (data : List Byte) (hr : outOfRange i = false) (hs : isStart i = true → ok = true)
      (hlen : data.length = okDataLength i) : Response i ok .ok data

section Owed
variable {i : Instr} {w : CmdWord} {payload data : List Byte} {ok : Bool} {st : Status}

theorem Response.responseOf (h : Response i ok st data) (hdec : decode (.cmd w payload) = .ok i) :
    ResponseOf w payload ok st data := by
  unfold ResponseOf
  rw [hdec]
  cases h with
  | outOfRange hr => simp [hr]
  | driverError hr hs hok => simp [hr, hs, hok]
  | ok data hr hs hlen => simpa [hr, hlen] using hs

theorem responseOf_undecoded (h : ∀ i, decode (.cmd w payload) ≠ .ok i) :
    ResponseOf w payload ok .illegalCommand [] := by
  obtain ⟨err, hdec⟩ := decode_eq_error h
  unfold ResponseOf
  rw [hdec]
  exact ⟨rfl, rfl⟩

theorem Response.ne_outOfRange (h : Response i ok st data) (hr : Machine.outOfRange i = false) :
    st ≠ .outOfRange := by
  cases h with
  | outOfRange hr' => exact absurd hr' (Bool.eq_false_iff.1 hr)
  | driverError => decide
  | ok => decide

/-- The two statuses kept for a software layer around the block are owed to no command (R112). -/
theorem Response.ne_reserved (h : Response i ok st data) : st ≠ .configurationError ∧ st ≠ .allocationError := by
  cases h <;> decide

end Owed

/-! ## Outputs without a response -/

/-- None of the outputs is a response. -/
def NoResponse (outs : List Output) : Prop := ∀ o ∈ outs, o.isRsp = false

/-- `t` has the trace of `s`, and behind it outputs of which none is a response. -/
def Unanswered (s t : State) : Prop := ∃ outs, t.trace = s.trace ++ outs ∧ NoResponse outs

/-- The transition completes and answers the instruction `i`, given in `s`: one response, the one owed, as its last
output. -/
def Answered (i : Instr) (s : State) (o : Host.Outcome State Fault Refusal) : Prop :=
  ∃ t pre st data, o = .next t ∧ t.trace = s.trace ++ (pre ++ [.rsp st data]) ∧ NoResponse pre ∧
    Response i s.drvOk st data

section Outputs
variable {p : Params} {s t u : State} {i : Instr} {o : Output} {pre : List Output} {data : List Byte} {st : Status}

@[simp] theorem noResponse_nil : NoResponse [] := nofun

@[simp] theorem noResponse_cons : NoResponse (o :: pre) ↔ o.isRsp = false ∧ NoResponse pre := List.forall_mem_cons

theorem NoResponse.rsp_notMem (h : NoResponse pre) : .rsp st data ∉ pre :=
  fun hmem => absurd (h _ hmem) (by simp [Output.isRsp])

/-- The release of the break that may come first is no response (R102, R126). -/
theorem NoResponse.afterRelease (b : Bool) (h : NoResponse pre) :
    NoResponse ((if b then [.brkOff] else []) ++ pre) := by
  cases b with
  | false => exact h
  | true => exact noResponse_cons.2 ⟨rfl, h⟩

theorem unanswered_of_trace_eq (h : t.trace = s.trace) : Unanswered s t :=
  ⟨[], by rw [h, List.append_nil], noResponse_nil⟩

theorem unanswered_of_output (h : t.trace = s.trace ++ [o]) (ho : o.isRsp = false) : Unanswered s t :=
  ⟨[o], h, noResponse_cons.2 ⟨ho, noResponse_nil⟩⟩

/-! ## Events are not answered -/

/-- A Data event outputs nothing, in any decoder state (R90, R91). -/
theorem exec_evData_trace {n : Field} {b : List Byte} (hwf : (Instr.evData n b).wellFormed = true)
    (h : exec (.evData n b) s = .next t) : t.trace = s.trace := by
  by_cases hm : s.mode = .receive
  · cases hd : s.dstate with
    | receiving =>
      rw [exec_evData_receiving hwf hm hd] at h
      rw [State.consume_frame h]
    | breakDetected =>
      by_cases hfirst : b.head? = some 0x00
      · obtain ⟨rest, rfl⟩ := List.head?_eq_some_iff.1 hfirst
        rw [exec_evData_startCode hwf hm hd] at h
        rw [State.consume_frame h]
        rfl
      · rw [exec_evData_alternate hwf hm hd hfirst] at h
        cases h
        rfl
    | idle | frameDone | linkError =>
      rw [exec_evData_discards n b (by simp [hd])] at h
      cases h
      rfl
  · cases (whenReceiving_drops _ hm).symm.trans h
    rfl

/-- A break outputs nothing but the flush of a decoder that re-arms (R89). -/
theorem exec_evBreak_unanswered (h : exec .evBreak s = .next t) : Unanswered s t := by
  by_cases hm : s.mode = .receive
  · by_cases hd : s.dstate = .receiving
    · rw [exec_evBreak_receiving hm hd] at h
      cases h
      exact unanswered_of_trace_eq rfl
    · rw [exec_evBreak_rearms hm hd] at h
      cases h
      exact unanswered_of_output s.rearm_trace rfl
  · cases (whenReceiving_drops _ hm).symm.trans h
    exact unanswered_of_trace_eq rfl

theorem exec_buildEvt_unanswered {c : EvtOp} {e : EvtWord} {b : List Byte}
    (hwf : (buildEvt c e b).wellFormed = true) (h : exec (buildEvt c e b) s = .next t) : Unanswered s t := by
  cases c with
  | data => exact unanswered_of_trace_eq (exec_evData_trace hwf h)
  | brk => exact exec_evBreak_unanswered h
  | ferr | perr | ovf | bfull =>
    rcases whenReceiving_next_cases h with rfl | rfl
    · exact unanswered_of_trace_eq rfl
    · exact unanswered_of_output s.linkFault_trace rfl

theorem deliver_evt_unanswered {e : EvtWord} {b : List Byte} (h : deliver p (.evt e b) s = .next t) :
    Unanswered s t := by
  by_cases hdec : ∃ i, decode (.evt e b) = .ok i
  · obtain ⟨i, hdec⟩ := hdec
    obtain ⟨c, hsel, hlen, rfl⟩ := decode_evt_eq_ok.1 hdec
    rw [deliver_evt_decoded p hdec] at h
    exact exec_buildEvt_unanswered (buildEvt_wellFormed hsel hlen) h
  · rw [deliver_evt_undecoded p (not_exists.1 hdec)] at h
    cases h
    exact unanswered_of_trace_eq rfl

/-! ## Neither is any other label -/

theorem txReady_unanswered (h : txReady p s = .next t) : Unanswered s t := by
  rcases txReady_cases p s with ⟨-, e⟩ | ⟨-, e⟩ | ⟨-, -, e⟩ <;> rw [e] at h
  · cases h
    exact unanswered_of_output (s.handStartCode_trace p) rfl
  · rcases handPayload_cases s with ⟨-, e'⟩ | ⟨-, e'⟩ <;> rw [e'] at h <;> cases h
    exact unanswered_of_output rfl rfl
  · cases h
    exact unanswered_of_trace_eq rfl

/-- Only a command is answered (R57). -/
theorem deliver_unanswered {l : Label} (hcmd : ∀ w payload ok, l ≠ .cmd w payload ok) (h : deliver p l s = .next t) :
    Unanswered s t := by
  cases l with
  | cmd w payload ok => exact absurd rfl (hcmd w payload ok)
  | evt e b => exact deliver_evt_unanswered h
  | tick =>
    cases h
    exact unanswered_of_trace_eq s.tick_trace
  | txReady => exact txReady_unanswered h
  | txDone ok =>
    cases h
    rcases s.txDone_cases p ok with ⟨-, e⟩ | ⟨-, e⟩ | ⟨-, -, e⟩ <;> rw [e]
    · exact unanswered_of_output (s.assertBreak_trace p) rfl
    · exact unanswered_of_trace_eq rfl
    · exact unanswered_of_trace_eq rfl
  | reset =>
    cases h
    exact ⟨_, by rw [s.applyReset_trace, List.append_assoc], .afterRelease s.brk (by simp [Output.isRsp])⟩
  | internal =>
    cases h
    rcases s.internal_cases p with ⟨-, -, e⟩ | ⟨-, -, e⟩ | ⟨-, -, e⟩ | ⟨-, e⟩ <;> rw [e]
    · exact unanswered_of_output (s.endBreak_trace p) rfl
    · exact unanswered_of_trace_eq rfl
    · exact unanswered_of_trace_eq rfl
    · exact unanswered_of_trace_eq rfl

/-! ## Every command is answered -/

/-- The operands of R109 end their command before it does anything (R109, R117). -/
theorem exec_outOfRange (s : State) (hwf : i.wellFormed = true) (hr : outOfRange i = true) :
    exec i s = raise .outOfRange s := by
  cases i with
  | write l o payload =>
    exact execWrite_outOfRange s (beq_iff_eq.1 hwf) (of_decide_eq_true hr)
  | setch v a => exact execSetch_outOfRange v s (of_decide_eq_true hr)
  | getch a => exact execGetch_outOfRange s (of_decide_eq_true hr)
  | getrng c a => exact execGetrng_outOfRange s (of_decide_eq_true hr)
  | setuni | getuni | start | stop | flush | getstat | evData | evBreak | evFerr | evPerr | evOvf | evBfull =>
    exact absurd hr Bool.false_ne_true

/-- A command that ends by `answer` with the data owed is answered. -/
theorem answered_of_answer {act : Host.Outcome State Fault Refusal} (hact : act = answer u data)
    (hu : u.trace = s.trace) (hr : outOfRange i = false) (hs : isStart i = false)
    (hlen : data.length = okDataLength i) : Answered i s act :=
  ⟨_, [], .ok, data, hact, by rw [State.respond_trace, hu, List.nil_append], noResponse_nil,
    .ok data hr (fun h => absurd h (Bool.eq_false_iff.1 hs)) hlen⟩

theorem answered_of_outOfRange (hwf : i.wellFormed = true) (hr : outOfRange i = true) : Answered i s (exec i s) :=
  ⟨_, [], .outOfRange, [], exec_outOfRange s hwf hr, rfl, noResponse_nil, .outOfRange hr⟩

/-- A command that opens a session answers behind the outputs of the session (R103, R104). -/
theorem answered_session (hu : u.trace = s.trace ++ (if s.brk then [.brkOff] else []) ++ (pre ++ [.rsp st data]))
    (hpre : NoResponse pre) (h : Response i s.drvOk st data) : Answered i s (.next u) :=
  ⟨u, (if s.brk then [.brkOff] else []) ++ pre, st, data, rfl, by rw [hu, List.append_assoc, List.append_assoc],
    hpre.afterRelease s.brk, h⟩

theorem execStart_answered (m : StartMode) (s : State) : Answered (.start m) s (execStart m s) := by
  have hpre (l : Bool) : NoResponse [.linkCfg, .dir l] := by simp [Output.isRsp]
  cases hok : s.drvOk with
  | false =>
    rw [execStart_driverError m hok]
    exact answered_session rfl (hpre false) (.driverError rfl rfl hok)
  | true =>
    have hresponse : Response (.start m) s.drvOk .ok [] := .ok [] rfl (fun _ => hok) rfl
    cases m with
    | tx =>
      rw [execStart_tx hok]
      exact answered_session rfl (hpre true) hresponse
    | rx =>
      rw [execStart_rx hok]
      exact answered_session rfl (hpre false) hresponse

theorem execStop_answered (s : State) : Answered .stop s (execStop s) := by
  rw [execStop_eq]
  exact answered_session (pre := [.dir false]) rfl (by simp [Output.isRsp]) (.ok [] rfl nofun rfl)

theorem execFlush_answered (s : State) : Answered .flush s (execFlush s) :=
  ⟨_, [.rxFlush], .ok, [], execFlush_eq s, rfl, by simp [Output.isRsp], .ok [] rfl nofun rfl⟩

/-- A command with its operands in range is answered by `OK`, or by `DriverError` if it is START (R57, R110). -/
theorem exec_buildCmd_inRange_answered {c : CmdOp} {w : CmdWord} {payload : List Byte} (s : State)
    (hwf : (buildCmd c w payload).wellFormed = true) (hr : outOfRange (buildCmd c w payload) = false) :
    Answered (buildCmd c w payload) s (exec (buildCmd c w payload) s) := by
  cases c with
  | start => exact execStart_answered _ s
  | stop => exact execStop_answered s
  | setch =>
    have hrange := of_decide_eq_false hr
    exact answered_of_answer (execSetch_inRange _ s (by omega)) rfl hr rfl rfl
  | setuni => exact answered_of_answer (execSetuni_whole s (beq_iff_eq.1 hwf)) rfl hr rfl rfl
  | write =>
    have hrange := of_decide_eq_false hr
    exact answered_of_answer (execWrite_inRange s (beq_iff_eq.1 hwf) (by omega)) rfl hr rfl rfl
  | getuni => exact answered_of_answer (u := s) rfl rfl hr rfl (Memory.length_readRun ..)
  | getch =>
    have hrange := of_decide_eq_false hr
    exact answered_of_answer (execGetch_inRange s (by omega)) rfl hr rfl rfl
  | getrng =>
    have hrange := of_decide_eq_false hr
    exact answered_of_answer (execGetrng_inRange s (by omega)) rfl hr rfl (Memory.length_readRun ..)
  | flush => exact execFlush_answered s
  | getstat => exact answered_of_answer (u := s) rfl rfl hr rfl rfl

/-- Whatever a command transaction decodes to is answered as it is owed (R57). -/
theorem exec_answered {w : CmdWord} {payload : List Byte} (hdec : decode (.cmd w payload) = .ok i) (s : State) :
    Answered i s (exec i s) := by
  obtain ⟨c, hsel, hlen, rfl⟩ := decode_cmd_eq_ok.1 hdec
  have hwf := buildCmd_wellFormed hsel hlen
  cases hr : outOfRange (buildCmd c w payload) with
  | true => exact answered_of_outOfRange hwf hr
  | false => exact exec_buildCmd_inRange_answered s hwf hr

/-- Every command transition is answered as it is owed, one that does not decode by `IllegalCommand` (R57, R111). -/
theorem deliver_cmd_answered {w : CmdWord} {payload : List Byte} {ok : Bool}
    (h : deliver p (.cmd w payload ok) s = .next t) :
    ∃ pre st data, t.trace = s.trace ++ (pre ++ [.rsp st data]) ∧ NoResponse pre ∧ ResponseOf w payload ok st data ∧
      st ≠ .configurationError ∧ st ≠ .allocationError := by
  by_cases hdec : ∃ i, decode (.cmd w payload) = .ok i
  · obtain ⟨i, hdec⟩ := hdec
    rw [deliver_cmd_decoded p hdec] at h
    obtain ⟨t', pre, st, data, e, htrace, hpre, hresponse⟩ := exec_answered hdec { s with drvOk := ok }
    cases h.symm.trans e
    exact ⟨pre, st, data, htrace, hpre, hresponse.responseOf hdec, hresponse.ne_reserved⟩
  · rw [deliver_cmd_undecoded p (not_exists.1 hdec)] at h
    cases h
    exact ⟨[], .illegalCommand, [], rfl, noResponse_nil, responseOf_undecoded (not_exists.1 hdec), nofun, nofun⟩

end Outputs

/-! ## The obligations -/

/-- Settles O28: the range checks of the four commands are those of R109; the response is the only one of its
transition, and `OutOfRange` is owed to no other operands. -/
theorem outOfRangeIsANoOp : Obligations.OutOfRangeIsANoOp := by
  unfold Obligations.OutOfRangeIsANoOp
  refine fun i s hwf => ⟨exec_outOfRange s hwf, fun hr t ht => ?_⟩
  rcases exists_decode_eq_ok hwf with ⟨w, payload, hdec⟩ | ⟨e, b, hdec⟩
  · obtain ⟨t', pre, st, data, e, htrace, hpre, hresponse⟩ := exec_answered hdec s
    cases ht.symm.trans e
    refine ⟨_, htrace, fun d hmem => ?_⟩
    rcases List.mem_append.1 hmem with hmem | hmem
    · exact hpre.rsp_notMem hmem
    · cases List.mem_singleton.1 hmem
      exact hresponse.ne_outOfRange hr rfl
  · obtain ⟨c, hsel, hlen, rfl⟩ := decode_evt_eq_ok.1 hdec
    obtain ⟨outs, htrace, hn⟩ := exec_buildEvt_unanswered (buildEvt_wellFormed hsel hlen) ht
    exact ⟨outs, htrace, fun d => hn.rsp_notMem⟩

/-- Settles O37: a command transition is answered as it is owed, every other label adds no response, and the codes are
those of R108. -/
theorem everyCommandAnsweredOnce : Obligations.EveryCommandAnsweredOnce := by
  unfold Obligations.EveryCommandAnsweredOnce
  refine ⟨fun p l s t h => ?_, rfl⟩
  by_cases hcmd : ∃ w payload ok, l = .cmd w payload ok
  · obtain ⟨w, payload, ok, rfl⟩ := hcmd
    obtain ⟨pre, st, data, htrace, hpre, howed⟩ := deliver_cmd_answered h
    refine ⟨_, htrace, fun hne => absurd rfl (hne w payload ok), fun w' payload' ok' hl => ?_⟩
    cases hl
    exact ⟨pre, st, data, rfl, hpre, howed⟩
  · have hne : ∀ w payload ok, l ≠ .cmd w payload ok := by simpa using hcmd
    obtain ⟨outs, htrace, hn⟩ := deliver_unanswered hne h
    exact ⟨outs, htrace, fun _ => hn, fun w payload ok hl => absurd hl (hne w payload ok)⟩

end Sys2Proof.Machine
end

section
/-! PROOFS. Resets and hazards (70_reset_and_hazards.md): Reset and its outputs (R126), what a short frame costs (R131),
what START and STOP keep and lose (R138), and the bounds of an instantiation (R140). -/

namespace Sys2Proof.Machine

/-! ## A short frame (R131) -/

section ShortFrame
variable {p : Params} {s : State}

/-- A run of labels none of which acts on the state it is in changes nothing. -/
theorem runLabels_eq_self {ls : List Label} (h : ∀ l ∈ ls, deliver p l s = .next s) : runLabels p ls s = .next s := by
  induction ls with
  | nil => rfl
  | cons l ls ih =>
    obtain ⟨hl, hls⟩ := List.forall_mem_cons.1 h
    exact (runLabels_cons hl ls).trans (ih hls)

/-- In FrameDone the Data events that come are discarded, however many (R90). -/
theorem runLabels_dataLabels_frameDone (p : Params) (hd : s.dstate = .frameDone) {chunks : List (List Byte)}
    (hfit : ∀ b ∈ chunks, FitsDataEvent b) : runLabels p (chunks.map dataLabel) s = .next s :=
  runLabels_eq_self <| List.forall_mem_map.2 fun b hb =>
    (deliver_dataLabel p (hfit b hb) s).trans (exec_evData_discards _ b (.inr (.inl hd)))

/-- The break of the next frame in Receiving only ends the frame before it, and the data behind it is lost. -/
theorem runLabels_evBreak_dataLabels (p : Params) (hm : s.mode = .receive) (hd : s.dstate = .receiving)
    {chunks : List (List Byte)} (hfit : ∀ b ∈ chunks, FitsDataEvent b) :
    runLabels p (labelOf .evBreak true :: chunks.map dataLabel) s = .next { s with dstate := .frameDone } := by
  have hbreak : deliver p (labelOf .evBreak true) s = .next { s with dstate := .frameDone } :=
    (deliver_labelOf_evt p rfl rfl true s).trans (exec_evBreak_receiving hm hd)
  rw [runLabels_cons hbreak]
  exact runLabels_dataLabels_frameDone p rfl hfit

end ShortFrame

/-- Settles O54: the first break ends the frame, in FrameDone the data is discarded, and the second break re-arms. -/
theorem shortFrameCostsTheNext : Obligations.ShortFrameCostsTheNext := by
  unfold Obligations.ShortFrameCostsTheNext
  intro p s chunks hm hd hfit
  have hlost := runLabels_evBreak_dataLabels p hm hd hfit
  have hrearm : deliver p (labelOf .evBreak true) { s with dstate := .frameDone } =
      .next { s with dstate := .frameDone : State }.rearm :=
    (deliver_labelOf_evt p rfl rfl true _).trans (exec_evBreak_rearms hm nofun)
  exact ⟨hlost, runLabels_trans hlost (runLabels_cons hrearm [])⟩

/-! ## Reset (R126) -/

/-- Settles O14: the effect of Reset as one equation. -/
theorem resetFromAnyState : Obligations.ResetFromAnyState := by
  unfold Obligations.ResetFromAnyState
  exact fun p s => ⟨s.applyReset, rfl, s.applyReset_eq⟩

/-! ## The bounds of an instantiation (R5, R140) -/

theorem stepInstantiated_legal {p : Params} (h : p.legal = true) (s : State) :
    stepInstantiated p s = stepWith p s :=
  if_pos h

theorem stepInstantiated_illegal {p : Params} (h : p.legal ≠ true) (s : State) :
    stepInstantiated p s = .refused .illegalParameters :=
  if_neg h

/-- Settles O19: a parameter beyond a bound makes the instantiation illegal, and a legal one takes the step. -/
theorem illegalInstantiationRefused : Obligations.IllegalInstantiationRefused := by
  unfold Obligations.IllegalInstantiationRefused
  refine fun p s => ⟨fun hout => stepInstantiated_illegal (fun hlegal => ?_) s,
    fun hin => stepInstantiated_legal (p.legal_iff.2 hin) s⟩
  have hbounds := p.legal_iff.1 hlegal
  omega

/-! ## The data outlives the session (R102, R138) -/

/-- START and STOP open a session, in which only the transmitter waits for anything (R102 to R104). -/
theorem exec_opensSession {i : Instr} (hi : (∃ m, i = .start m) ∨ i = .stop) (s : State) :
    ∃ md outs, exec i s = .next { s.openSession md (decide (md = .transmit)) outs with
      txstate := if md = .transmit then .waitIdle else .off } := by
  rcases hi with ⟨m, rfl⟩ | rfl
  · cases hok : s.drvOk with
    | false => exact ⟨.stopped, _, execStart_driverError m hok⟩
    | true =>
      cases m with
      | tx => exact ⟨.transmit, _, execStart_tx hok⟩
      | rx => exact ⟨.receive, _, execStart_rx hok⟩
  · exact ⟨.stopped, _, execStop_eq s⟩

/-- Settles O55: both commands open a session, which keeps the buffers and starts every position again. -/
theorem modeChangeKeepsTheData : Obligations.ModeChangeKeepsTheData := by
  unfold Obligations.ModeChangeKeepsTheData
  intro i s hi
  obtain ⟨md, outs, hexec⟩ := exec_opensSession hi s
  refine ⟨_, hexec, rfl, rfl, rfl, rfl, rfl, rfl, rfl, rfl, ?_, decide_eq_true_iff⟩
  exact (ite_eq_or_eq (md = .transmit) TxState.waitIdle .off).symm

end Sys2Proof.Machine
end

section
/-! PROOFS. Words written out by hand decode by the row of the table they lie in (R54, R59). -/

namespace Sys2Proof

/-- Settles O9: each word lies in the row named for it, its payload has the length it fixes, and its fields are the
operands. -/
theorem sampleWordsDecode : Obligations.SampleWordsDecode := by
  unfold Obligations.SampleWordsDecode
  exact ⟨decode_cmd_of_selects (c := .start) rfl rfl, decode_cmd_of_selects (c := .setch) rfl rfl,
    decode_cmd_of_selects (c := .write) rfl rfl, decode_cmd_of_selects (c := .getch) rfl rfl,
    decode_cmd_of_selects (c := .getrng) rfl rfl, decode_cmd_of_selects (c := .getstat) rfl rfl,
    decode_evt_of_selects (c := .data) rfl rfl, decode_evt_of_selects (c := .brk) rfl rfl,
    decode_evt_of_selects (c := .bfull) rfl rfl⟩

end Sys2Proof
end
